-- ==== Sys2Proof/Word.lean ====
section
/-! DEFINITION. The machine's data widths. -/

namespace Sys2Proof

/-- A 32-bit register, address or instruction word (R4: XLEN = 32). Its bit `i` in the spec's numbering, bit 0 the
most significant (R7), is `getMsbD i`. -/
abbrev Word := BitVec 32

/-- One byte of memory (R101). -/
abbrev Byte := BitVec 8

/-- A 64-bit floating-point register, or the time base (R4: FLEN = 64; R47). -/
abbrev DWord := BitVec 64

end Sys2Proof
end

