-- ==== Sys2Proof/Syntax.lean ====
section
/-! DEFINITION. The instructions: one constructor for each of the 39 rows of spec/opcode_table.json (R142). -/

namespace Sys2Proof

/-- A GPR or FPR number (R21, R22). -/
abbrev Reg := Fin 32

/-- A CR or FPSCR field number: field k is bits 4k to 4k+3 (R131, R141). -/
abbrev FieldNo := Fin 8

/-- A CR or FPSCR bit number, bit 0 the most significant (R131, R141). -/
abbrev BitNo := Fin 32

/-- The instructions of R142, with the operands of R131 and R141. `simm` and `d` are the sign-extended immediates,
`disp` the signed byte displacement of a branch, `n` a decimal SPR or time-base register number; `bo`, `crm`, `fm` and
`imm` stay bit strings, since their bits are tested one by one. `rc`, `oe`, `aa`, `lk` are the Rc, OE, AA and LK bits. -/
inductive Instr where
  /-- `cmpli crfD,0,rA,UIMM` (R277). -/
  | cmpli (crfD : FieldNo) (rA : Reg) (uimm : Nat)
  /-- `cmpi crfD,0,rA,SIMM` (R275). -/
  | cmpi (crfD : FieldNo) (rA : Reg) (simm : Int)
  /-- `addic. rD,rA,SIMM` (R281). -/
  | addicDot (rD rA : Reg) (simm : Int)
  /-- `addi rD,rA,SIMM` (R280). -/
  | addi (rD rA : Reg) (simm : Int)
  /-- `bc[l][a] BO,BI,target` (R271). -/
  | bc (bo : BitVec 5) (bi : BitNo) (disp : Int) (aa lk : Bool)
  /-- `sc` (R252). -/
  | sc
  /-- `b[l][a] target` (R270). -/
  | b (disp : Int) (aa lk : Bool)
  /-- `mcrf crfD,crfS` (R166). -/
  | mcrf (crfD crfS : FieldNo)
  /-- `bclr[l] BO,BI` (R272). -/
  | bclr (bo : BitVec 5) (bi : BitNo) (lk : Bool)
  /-- `crnor crbD,crbA,crbB` (R172). -/
  | crnor (crbD crbA crbB : BitNo)
  /-- `rfi` (R253). -/
  | rfi
  /-- `crandc crbD,crbA,crbB` (R174). -/
  | crandc (crbD crbA crbB : BitNo)
  /-- `crxor crbD,crbA,crbB` (R170). -/
  | crxor (crbD crbA crbB : BitNo)
  /-- `crnand crbD,crbA,crbB` (R171). -/
  | crnand (crbD crbA crbB : BitNo)
  /-- `crand crbD,crbA,crbB` (R168). -/
  | crand (crbD crbA crbB : BitNo)
  /-- `creqv crbD,crbA,crbB` (R173). -/
  | creqv (crbD crbA crbB : BitNo)
  /-- `crorc crbD,crbA,crbB` (R175). -/
  | crorc (crbD crbA crbB : BitNo)
  /-- `cror crbD,crbA,crbB` (R169). -/
  | cror (crbD crbA crbB : BitNo)
  /-- `bcctr[l] BO,BI` (R273). -/
  | bcctr (bo : BitVec 5) (bi : BitNo) (lk : Bool)
  /-- `andi. rA,rS,UIMM` (R282). -/
  | andiDot (rA rS : Reg) (uimm : Nat)
  /-- `andis. rA,rS,UIMM` (R283). -/
  | andisDot (rA rS : Reg) (uimm : Nat)
  /-- `cmp crfD,0,rA,rB` (R274). -/
  | cmp (crfD : FieldNo) (rA rB : Reg)
  /-- `subfc[o][.] rD,rA,rB` (R284). -/
  | subfc (rD rA rB : Reg) (oe rc : Bool)
  /-- `mfcr rD` (R164). -/
  | mfcr (rD : Reg)
  /-- `cmpl crfD,0,rA,rB` (R276). -/
  | cmpl (crfD : FieldNo) (rA rB : Reg)
  /-- `mfmsr rD` (R240). -/
  | mfmsr (rD : Reg)
  /-- `mtcrf CRM,rS` (R165). -/
  | mtcrf (crm : BitVec 8) (rS : Reg)
  /-- `mtmsr rS` (R241). -/
  | mtmsr (rS : Reg)
  /-- `mfspr rD,n` (R160). -/
  | mfspr (rD : Reg) (n : Nat)
  /-- `mftb rD,n` (R220). -/
  | mftb (rD : Reg) (n : Nat)
  /-- `mtspr n,rS` (R161). -/
  | mtspr (n : Nat) (rS : Reg)
  /-- `mcrxr crfD` (R167). -/
  | mcrxr (crfD : FieldNo)
  /-- `lwz rD,d(rA)` (R286). -/
  | lwz (rD rA : Reg) (d : Int)
  /-- `mtfsb1[.] crbD` (R207). -/
  | mtfsb1 (crbD : BitNo) (rc : Bool)
  /-- `mcrfs crfD,crfS` (R202). -/
  | mcrfs (crfD crfS : FieldNo)
  /-- `mtfsb0[.] crbD` (R206). -/
  | mtfsb0 (crbD : BitNo) (rc : Bool)
  /-- `mtfsfi[.] crfD,IMM` (R205). -/
  | mtfsfi (crfD : FieldNo) (imm : BitVec 4) (rc : Bool)
  /-- `mffs[.] frD` (R208). -/
  | mffs (frD : Reg) (rc : Bool)
  /-- `mtfsf[.] FM,frB` (R204). -/
  | mtfsf (fm : BitVec 8) (frB : Reg) (rc : Bool)
deriving DecidableEq, Repr

end Sys2Proof
end

