-- ==== Sys2Proof/WellFormed.lean ====
section
/-! DEFINITION. Which instructions have an encoding: the ranges of R141 and the 10-bit SPR number of R138. Register,
field and bit numbers are in range by their types. -/

namespace Sys2Proof

/-- A signed 16-bit immediate (R141: SIMM, d). -/
abbrev SimmOk (x : Int) : Prop := -32768 ≤ x ∧ x ≤ 32767

/-- An unsigned 16-bit immediate (R141: UIMM). -/
abbrev UimmOk (x : Nat) : Prop := x < 65536

/-- A 10-bit SPR or time-base register number (R100, R138). -/
abbrev SprOk (n : Nat) : Prop := n < 1024

/-- The displacement of bc (R141: BD): a multiple of 4 from −32768 to +32764. -/
abbrev BdOk (x : Int) : Prop := -32768 ≤ x ∧ x ≤ 32764 ∧ x % 4 = 0

/-- The displacement of b (R141: LI): a multiple of 4 from −2^25 to 2^25 − 4. -/
abbrev LiOk (x : Int) : Prop := -33554432 ≤ x ∧ x ≤ 33554428 ∧ x % 4 = 0

/-- `i` has an encoding (R141). -/
def Instr.wellFormed (i : Instr) : Bool :=
  match i with
  | .cmpli _ _ uimm => decide (UimmOk uimm)
  | .cmpi _ _ simm => decide (SimmOk simm)
  | .addicDot _ _ simm => decide (SimmOk simm)
  | .addi _ _ simm => decide (SimmOk simm)
  | .bc _ _ disp _ _ => decide (BdOk disp)
  | .sc => true
  | .b disp _ _ => decide (LiOk disp)
  | .mcrf _ _ => true
  | .bclr _ _ _ => true
  | .crnor _ _ _ => true
  | .rfi => true
  | .crandc _ _ _ => true
  | .crxor _ _ _ => true
  | .crnand _ _ _ => true
  | .crand _ _ _ => true
  | .creqv _ _ _ => true
  | .crorc _ _ _ => true
  | .cror _ _ _ => true
  | .bcctr _ _ _ => true
  | .andiDot _ _ uimm => decide (UimmOk uimm)
  | .andisDot _ _ uimm => decide (UimmOk uimm)
  | .cmp _ _ _ => true
  | .subfc _ _ _ _ _ => true
  | .mfcr _ => true
  | .cmpl _ _ _ => true
  | .mfmsr _ => true
  | .mtcrf _ _ => true
  | .mtmsr _ => true
  | .mfspr _ n => decide (SprOk n)
  | .mftb _ n => decide (SprOk n)
  | .mtspr n _ => decide (SprOk n)
  | .mcrxr _ => true
  | .lwz _ _ d => decide (SimmOk d)
  | .mtfsb1 _ _ => true
  | .mcrfs _ _ => true
  | .mtfsb0 _ _ => true
  | .mtfsfi _ _ _ => true
  | .mffs _ _ => true
  | .mtfsf _ _ _ => true

end Sys2Proof
end

