-- ==== Sys2Proof/Decode.lean ====
section
/-! DEFINITION. The decoder and the encoder, both written from the formats and the opcode map of 30_encoding.md
(R130 to R143). Every encoding is general knowledge by the spec's own word (GK7 to GK11): PRESUMED, log 28. -/

namespace Sys2Proof

/-! ### Bit fields of an instruction word -/

/-- The field `w[a:b]` of an instruction word as a number, bit 0 the most significant (R7, R131). -/
def fld (w : Word) (a b : Nat) : Nat := w.toNat / 2 ^ (31 - b) % 2 ^ (b + 1 - a)

/-- The sign extension of the `n`-bit field value `v` (R8 `sext`). -/
def sextField (n v : Nat) : Int := if v < 2 ^ (n - 1) then v else (v : Int) - 2 ^ n

/-- The `n`-bit field value whose sign extension is `x`. -/
def signField (n : Nat) (x : Int) : Nat := (x % 2 ^ n).toNat

/-- A register number field of five bits (R131). -/
def regAt (w : Word) (a : Nat) : Reg := Fin.ofNat 32 (fld w a (a + 4))

/-- A bit number field of five bits (R131). -/
def bitNoAt (w : Word) (a : Nat) : BitNo := Fin.ofNat 32 (fld w a (a + 4))

/-- A field number of three bits (R131). -/
def fieldNoAt (w : Word) (a : Nat) : FieldNo := Fin.ofNat 8 (fld w a (a + 2))

/-- A one-bit field (R131). -/
def flagAt (w : Word) (a : Nat) : Bool := decide (fld w a a = 1)

/-- The SPR number of an XFX-form instruction, whose halves are swapped (R138): `n = w[16:20] * 32 + w[11:15]`. -/
def sprAt (w : Word) : Nat := fld w 16 20 * 32 + fld w 11 15

/-- The signed immediate SIMM or d (R141). -/
def simmAt (w : Word) : Int := sextField 16 (fld w 16 31)

/-- The unsigned immediate UIMM (R141). -/
def uimmAt (w : Word) : Nat := fld w 16 31

/-- The byte displacement of bc (R141): `sext(w[16:29] ∥ 0b00)`. -/
def bdAt (w : Word) : Int := sextField 14 (fld w 16 29) * 4

/-- The byte displacement of b (R141): `sext(w[6:29] ∥ 0b00)`. -/
def liAt (w : Word) : Int := sextField 24 (fld w 6 29) * 4

/-! ### The opcode map (R142) -/

/-- `some i` where the reserved bits of the form are 0, as the mask of the row requires (R143). -/
def orReserved (zeros : Bool) (i : Instr) : Option Instr := if zeros then some i else none

/-- The rows with primary opcode 19 (R137, R142). -/
def decode19 (w : Word) : Option Instr :=
  match fld w 21 30 with
  | 0 => orReserved (fld w 9 10 == 0 && fld w 14 20 == 0 && fld w 31 31 == 0) (.mcrf (fieldNoAt w 6) (fieldNoAt w 11))
  | 16 => orReserved (fld w 16 20 == 0) (.bclr (BitVec.ofNat 5 (fld w 6 10)) (bitNoAt w 11) (flagAt w 31))
  | 33 => orReserved (fld w 31 31 == 0) (.crnor (bitNoAt w 6) (bitNoAt w 11) (bitNoAt w 16))
  | 50 => orReserved (fld w 6 20 == 0 && fld w 31 31 == 0) .rfi
  | 129 => orReserved (fld w 31 31 == 0) (.crandc (bitNoAt w 6) (bitNoAt w 11) (bitNoAt w 16))
  | 193 => orReserved (fld w 31 31 == 0) (.crxor (bitNoAt w 6) (bitNoAt w 11) (bitNoAt w 16))
  | 225 => orReserved (fld w 31 31 == 0) (.crnand (bitNoAt w 6) (bitNoAt w 11) (bitNoAt w 16))
  | 257 => orReserved (fld w 31 31 == 0) (.crand (bitNoAt w 6) (bitNoAt w 11) (bitNoAt w 16))
  | 289 => orReserved (fld w 31 31 == 0) (.creqv (bitNoAt w 6) (bitNoAt w 11) (bitNoAt w 16))
  | 417 => orReserved (fld w 31 31 == 0) (.crorc (bitNoAt w 6) (bitNoAt w 11) (bitNoAt w 16))
  | 449 => orReserved (fld w 31 31 == 0) (.cror (bitNoAt w 6) (bitNoAt w 11) (bitNoAt w 16))
  | 528 => orReserved (fld w 16 20 == 0) (.bcctr (BitVec.ofNat 5 (fld w 6 10)) (bitNoAt w 11) (flagAt w 31))
  | _ => none

/-- The rows with primary opcode 31 (R136, R138, R140, R142). subfc's XO is the nine bits 22:30, and bit 21 is its OE. -/
def decode31 (w : Word) : Option Instr :=
  match fld w 21 30 with
  | 0 => orReserved (fld w 9 10 == 0 && fld w 31 31 == 0) (.cmp (fieldNoAt w 6) (regAt w 11) (regAt w 16))
  | 8 => some (.subfc (regAt w 6) (regAt w 11) (regAt w 16) (flagAt w 21) (flagAt w 31))
  | 520 => some (.subfc (regAt w 6) (regAt w 11) (regAt w 16) (flagAt w 21) (flagAt w 31))
  | 19 => orReserved (fld w 11 20 == 0 && fld w 31 31 == 0) (.mfcr (regAt w 6))
  | 32 => orReserved (fld w 9 10 == 0 && fld w 31 31 == 0) (.cmpl (fieldNoAt w 6) (regAt w 11) (regAt w 16))
  | 83 => orReserved (fld w 11 20 == 0 && fld w 31 31 == 0) (.mfmsr (regAt w 6))
  | 144 => orReserved (fld w 11 11 == 0 && fld w 20 20 == 0 && fld w 31 31 == 0) (.mtcrf (BitVec.ofNat 8 (fld w 12 19)) (regAt w 6))
  | 146 => orReserved (fld w 11 20 == 0 && fld w 31 31 == 0) (.mtmsr (regAt w 6))
  | 339 => orReserved (fld w 31 31 == 0) (.mfspr (regAt w 6) (sprAt w))
  | 371 => orReserved (fld w 31 31 == 0) (.mftb (regAt w 6) (sprAt w))
  | 467 => orReserved (fld w 31 31 == 0) (.mtspr (sprAt w) (regAt w 6))
  | 512 => orReserved (fld w 9 20 == 0 && fld w 31 31 == 0) (.mcrxr (fieldNoAt w 6))
  | _ => none

/-- The rows with primary opcode 63 (R136, R139, R142). -/
def decode63 (w : Word) : Option Instr :=
  match fld w 21 30 with
  | 38 => orReserved (fld w 11 20 == 0) (.mtfsb1 (bitNoAt w 6) (flagAt w 31))
  | 64 => orReserved (fld w 9 10 == 0 && fld w 14 20 == 0 && fld w 31 31 == 0) (.mcrfs (fieldNoAt w 6) (fieldNoAt w 11))
  | 70 => orReserved (fld w 11 20 == 0) (.mtfsb0 (bitNoAt w 6) (flagAt w 31))
  | 134 => orReserved (fld w 9 15 == 0 && fld w 20 20 == 0) (.mtfsfi (fieldNoAt w 6) (BitVec.ofNat 4 (fld w 16 19)) (flagAt w 31))
  | 583 => orReserved (fld w 11 20 == 0) (.mffs (regAt w 6) (flagAt w 31))
  | 711 => orReserved (fld w 6 6 == 0 && fld w 15 15 == 0) (.mtfsf (BitVec.ofNat 8 (fld w 7 14)) (regAt w 16) (flagAt w 31))
  | _ => none

/-- The instruction that the word `w` is (R142, R143), or none where it matches no row (R144). -/
def decode (w : Word) : Option Instr :=
  match fld w 0 5 with
  | 10 => orReserved (fld w 9 10 == 0) (.cmpli (fieldNoAt w 6) (regAt w 11) (uimmAt w))
  | 11 => orReserved (fld w 9 10 == 0) (.cmpi (fieldNoAt w 6) (regAt w 11) (simmAt w))
  | 13 => some (.addicDot (regAt w 6) (regAt w 11) (simmAt w))
  | 14 => some (.addi (regAt w 6) (regAt w 11) (simmAt w))
  | 16 => some (.bc (BitVec.ofNat 5 (fld w 6 10)) (bitNoAt w 11) (bdAt w) (flagAt w 30) (flagAt w 31))
  | 17 => orReserved (fld w 6 29 == 0 && fld w 30 30 == 1 && fld w 31 31 == 0) .sc
  | 18 => some (.b (liAt w) (flagAt w 30) (flagAt w 31))
  | 19 => decode19 w
  | 28 => some (.andiDot (regAt w 11) (regAt w 6) (uimmAt w))
  | 29 => some (.andisDot (regAt w 11) (regAt w 6) (uimmAt w))
  | 31 => decode31 w
  | 32 => some (.lwz (regAt w 6) (regAt w 11) (simmAt w))
  | 63 => decode63 w
  | _ => none

/-- Why bytes are no instruction of the model. -/
inductive DecodeError where
  /-- Fewer than the four bytes of an instruction (R130). -/
  | truncated
  /-- The word matches no row of the opcode table (R144): it may be a valid RCPU instruction outside the spec. -/
  | instructionNotInSpec
deriving DecidableEq, Repr

/-- The word whose most significant byte is at the lowest address (R102, R111, R130). -/
def wordOfBytes (b0 b1 b2 b3 : Byte) : Word := b0 ++ b1 ++ b2 ++ b3

/-- The four bytes of a word, the most significant first (R102, R111). -/
def bytesOfWord (w : Word) : List Byte :=
  [w.extractLsb' 24 8, w.extractLsb' 16 8, w.extractLsb' 8 8, w.extractLsb' 0 8]

/-- The first instruction of a list of bytes and the bytes after it. Every instruction has four bytes (R130, R145). -/
def decodeBytes (bytes : List Byte) : Except DecodeError (Instr × List Byte) :=
  match bytes with
  | b0 :: b1 :: b2 :: b3 :: rest =>
    match decode (wordOfBytes b0 b1 b2 b3) with
    | some i => .ok (i, rest)
    | none => .error .instructionNotInSpec
  | _ => .error .truncated

/-- The instruction the decoder reads from the instruction whose bits are `w`, bit 0 the least significant, as
spec/opcode_table.json numbers them. -/
def decodeTableWord (nbits w : Nat) : Option Instr :=
  match decodeBytes (bytesOfWord (BitVec.ofNat 32 (w % 2 ^ nbits))) with
  | .ok (i, _) => some i
  | .error _ => none

/-! ### The encoder -/

/-- The value `v` placed in the field of an instruction word whose last bit is `b` (R7, R131). -/
def ins (b v : Nat) : Nat := v * 2 ^ (31 - b)

/-- The X, XL and XFX forms: OPCD, three operand fields of five bits, XO[21:30] and bit 31 (R136, R137, R138). -/
def formX (opcd f1 f2 f3 xo last : Nat) : Nat := ins 5 opcd + ins 10 f1 + ins 15 f2 + ins 20 f3 + ins 30 xo + ins 31 last

/-- The D form: OPCD, two operand fields of five bits and sixteen bits (R135). -/
def formD (opcd f1 f2 imm : Nat) : Nat := ins 5 opcd + ins 10 f1 + ins 15 f2 + ins 31 imm

/-- The XFX form of mfspr, mtspr and mftb: the halves of the SPR number are swapped (R138). -/
def formSpr (xo : Nat) (r : Reg) (n : Nat) : Nat := formX 31 r (n % 32) (n / 32 % 32) xo 0

/-- The instruction word as a number. -/
def encodeNat (i : Instr) : Nat :=
  match i with
  | .cmpli crfD rA uimm => formD 10 (crfD * 4) rA (uimm % 65536)
  | .cmpi crfD rA simm => formD 11 (crfD * 4) rA (signField 16 simm)
  | .addicDot rD rA simm => formD 13 rD rA (signField 16 simm)
  | .addi rD rA simm => formD 14 rD rA (signField 16 simm)
  | .bc bo bi disp aa lk =>
    ins 5 16 + ins 10 bo.toNat + ins 15 bi + ins 29 (signField 14 (disp / 4)) + ins 30 aa.toNat + ins 31 lk.toNat
  | .sc => ins 5 17 + ins 30 1
  | .b disp aa lk => ins 5 18 + ins 29 (signField 24 (disp / 4)) + ins 30 aa.toNat + ins 31 lk.toNat
  | .mcrf crfD crfS => formX 19 (crfD * 4) (crfS * 4) 0 0 0
  | .bclr bo bi lk => formX 19 bo.toNat bi 0 16 lk.toNat
  | .crnor crbD crbA crbB => formX 19 crbD crbA crbB 33 0
  | .rfi => formX 19 0 0 0 50 0
  | .crandc crbD crbA crbB => formX 19 crbD crbA crbB 129 0
  | .crxor crbD crbA crbB => formX 19 crbD crbA crbB 193 0
  | .crnand crbD crbA crbB => formX 19 crbD crbA crbB 225 0
  | .crand crbD crbA crbB => formX 19 crbD crbA crbB 257 0
  | .creqv crbD crbA crbB => formX 19 crbD crbA crbB 289 0
  | .crorc crbD crbA crbB => formX 19 crbD crbA crbB 417 0
  | .cror crbD crbA crbB => formX 19 crbD crbA crbB 449 0
  | .bcctr bo bi lk => formX 19 bo.toNat bi 0 528 lk.toNat
  | .andiDot rA rS uimm => formD 28 rS rA (uimm % 65536)
  | .andisDot rA rS uimm => formD 29 rS rA (uimm % 65536)
  | .cmp crfD rA rB => formX 31 (crfD * 4) rA rB 0 0
  | .subfc rD rA rB oe rc => formX 31 rD rA rB (oe.toNat * 512 + 8) rc.toNat
  | .mfcr rD => formX 31 rD 0 0 19 0
  | .cmpl crfD rA rB => formX 31 (crfD * 4) rA rB 32 0
  | .mfmsr rD => formX 31 rD 0 0 83 0
  | .mtcrf crm rS => ins 5 31 + ins 10 rS + ins 19 crm.toNat + ins 30 144
  | .mtmsr rS => formX 31 rS 0 0 146 0
  | .mfspr rD n => formSpr 339 rD n
  | .mftb rD n => formSpr 371 rD n
  | .mtspr n rS => formSpr 467 rS n
  | .mcrxr crfD => formX 31 (crfD * 4) 0 0 512 0
  | .lwz rD rA d => formD 32 rD rA (signField 16 d)
  | .mtfsb1 crbD rc => formX 63 crbD 0 0 38 rc.toNat
  | .mcrfs crfD crfS => formX 63 (crfD * 4) (crfS * 4) 0 64 0
  | .mtfsb0 crbD rc => formX 63 crbD 0 0 70 rc.toNat
  | .mtfsfi crfD imm rc => formX 63 (crfD * 4) 0 (imm.toNat * 2) 134 rc.toNat
  | .mffs frD rc => formX 63 frD 0 0 583 rc.toNat
  | .mtfsf fm frB rc => ins 5 63 + ins 14 fm.toNat + ins 20 frB + ins 30 711 + ins 31 rc.toNat

/-- The word of a well-formed instruction (R131 to R142). -/
def encode (i : Instr) : Word := BitVec.ofNat 32 (encodeNat i)

/-- The bytes of a well-formed instruction in memory order (R102, R130). -/
def encodeBytes (i : Instr) : List Byte := bytesOfWord (encode i)

/-! ### The opcode map as the spec prints it -/

/-- A row of R142: the mnemonic, and the match and mask such that a word is the instruction iff
`(w & mask) = match`. -/
structure OpcodeRow where
  mnemonic : String
  matchBits : Word
  mask : Word
deriving DecidableEq, Repr

/-- The 39 rows of R142, in its order. -/
def opcodeMap : List OpcodeRow := [
  ⟨"cmpli", 0x28000000#32, 0xFC600000#32⟩, ⟨"cmpi", 0x2C000000#32, 0xFC600000#32⟩,
  ⟨"addic.", 0x34000000#32, 0xFC000000#32⟩, ⟨"addi", 0x38000000#32, 0xFC000000#32⟩,
  ⟨"bc", 0x40000000#32, 0xFC000000#32⟩, ⟨"sc", 0x44000002#32, 0xFFFFFFFF#32⟩,
  ⟨"b", 0x48000000#32, 0xFC000000#32⟩, ⟨"mcrf", 0x4C000000#32, 0xFC63FFFF#32⟩,
  ⟨"bclr", 0x4C000020#32, 0xFC00FFFE#32⟩, ⟨"crnor", 0x4C000042#32, 0xFC0007FF#32⟩,
  ⟨"rfi", 0x4C000064#32, 0xFFFFFFFF#32⟩, ⟨"crandc", 0x4C000102#32, 0xFC0007FF#32⟩,
  ⟨"crxor", 0x4C000182#32, 0xFC0007FF#32⟩, ⟨"crnand", 0x4C0001C2#32, 0xFC0007FF#32⟩,
  ⟨"crand", 0x4C000202#32, 0xFC0007FF#32⟩, ⟨"creqv", 0x4C000242#32, 0xFC0007FF#32⟩,
  ⟨"crorc", 0x4C000342#32, 0xFC0007FF#32⟩, ⟨"cror", 0x4C000382#32, 0xFC0007FF#32⟩,
  ⟨"bcctr", 0x4C000420#32, 0xFC00FFFE#32⟩, ⟨"andi.", 0x70000000#32, 0xFC000000#32⟩,
  ⟨"andis.", 0x74000000#32, 0xFC000000#32⟩, ⟨"cmp", 0x7C000000#32, 0xFC6007FF#32⟩,
  ⟨"subfc", 0x7C000010#32, 0xFC0003FE#32⟩, ⟨"mfcr", 0x7C000026#32, 0xFC1FFFFF#32⟩,
  ⟨"cmpl", 0x7C000040#32, 0xFC6007FF#32⟩, ⟨"mfmsr", 0x7C0000A6#32, 0xFC1FFFFF#32⟩,
  ⟨"mtcrf", 0x7C000120#32, 0xFC100FFF#32⟩, ⟨"mtmsr", 0x7C000124#32, 0xFC1FFFFF#32⟩,
  ⟨"mfspr", 0x7C0002A6#32, 0xFC0007FF#32⟩, ⟨"mftb", 0x7C0002E6#32, 0xFC0007FF#32⟩,
  ⟨"mtspr", 0x7C0003A6#32, 0xFC0007FF#32⟩, ⟨"mcrxr", 0x7C000400#32, 0xFC7FFFFF#32⟩,
  ⟨"lwz", 0x80000000#32, 0xFC000000#32⟩, ⟨"mtfsb1", 0xFC00004C#32, 0xFC1FFFFE#32⟩,
  ⟨"mcrfs", 0xFC000080#32, 0xFC63FFFF#32⟩, ⟨"mtfsb0", 0xFC00008C#32, 0xFC1FFFFE#32⟩,
  ⟨"mtfsfi", 0xFC00010C#32, 0xFC7F0FFE#32⟩, ⟨"mffs", 0xFC00048E#32, 0xFC1FFFFE#32⟩,
  ⟨"mtfsf", 0xFC00058E#32, 0xFE0107FE#32⟩]

/-- The position of the instruction's row in `opcodeMap`. -/
def rowIndex (i : Instr) : Fin 39 :=
  match i with
  | .cmpli _ _ _ => 0
  | .cmpi _ _ _ => 1
  | .addicDot _ _ _ => 2
  | .addi _ _ _ => 3
  | .bc _ _ _ _ _ => 4
  | .sc => 5
  | .b _ _ _ => 6
  | .mcrf _ _ => 7
  | .bclr _ _ _ => 8
  | .crnor _ _ _ => 9
  | .rfi => 10
  | .crandc _ _ _ => 11
  | .crxor _ _ _ => 12
  | .crnand _ _ _ => 13
  | .crand _ _ _ => 14
  | .creqv _ _ _ => 15
  | .crorc _ _ _ => 16
  | .cror _ _ _ => 17
  | .bcctr _ _ _ => 18
  | .andiDot _ _ _ => 19
  | .andisDot _ _ _ => 20
  | .cmp _ _ _ => 21
  | .subfc _ _ _ _ _ => 22
  | .mfcr _ => 23
  | .cmpl _ _ _ => 24
  | .mfmsr _ => 25
  | .mtcrf _ _ => 26
  | .mtmsr _ => 27
  | .mfspr _ _ => 28
  | .mftb _ _ => 29
  | .mtspr _ _ => 30
  | .mcrxr _ => 31
  | .lwz _ _ _ => 32
  | .mtfsb1 _ _ => 33
  | .mcrfs _ _ => 34
  | .mtfsb0 _ _ => 35
  | .mtfsfi _ _ _ => 36
  | .mffs _ _ => 37
  | .mtfsf _ _ _ => 38

/-- The row of R142 that an instruction belongs to. -/
def rowOf (i : Instr) : OpcodeRow := opcodeMap.get (rowIndex i)

end Sys2Proof
end

