-- ==== Sys2Proof/Machine/Bits.lean ====
section
/-! DEFINITION. Bits and fields of a 32-bit register, in the spec's numbering: bit 0 is the most significant (R7). -/

namespace Sys2Proof.Machine

/-- The mask of bit `i` (R7): weight 2^(31 - i). -/
def bitMask (i : Nat) : Word := BitVec.twoPow 32 (31 - i)

/-- `V[i]` (R7, R8). -/
def getBit (v : Word) (i : Nat) : Bool := v.getMsbD i

/-- `V[i] <- b`, all other bits unchanged (R8). -/
def putBit (v : Word) (i : Nat) (b : Bool) : Word := if b then v ||| bitMask i else v &&& ~~~bitMask i

/-- The mask of field `k`, bits 4k to 4k+3 (R35). -/
def nibbleMask (k : Fin 8) : Word := 0xF0000000#32 >>> (4 * k.val)

/-- `V[4k : 4k+3]` (R8, R35). -/
def getNibble (v : Word) (k : Fin 8) : BitVec 4 := v.extractLsb' (28 - 4 * k.val) 4

/-- `V[4k : 4k+3] <- x`, all other bits unchanged (R8, R35). -/
def putNibble (v : Word) (k : Fin 8) (x : BitVec 4) : Word :=
  (v &&& ~~~nibbleMask k) ||| (x.setWidth 32 <<< (28 - 4 * k.val))

/-- The 32-bit mask with 0xF in field i for each bit i of an 8-bit field mask, bit 0 the leftmost (R141, R165). -/
def fieldsMask (m : BitVec 8) : Word :=
  (List.finRange 8).foldl (fun acc k => if m.getMsbD k.val then acc ||| nibbleMask k else acc) 0#32

/-- The fields of `v` that `m` selects, the other fields of `old` (R165, R204). -/
def putFields (old v : Word) (m : BitVec 8) : Word := (v &&& fieldsMask m) ||| (old &&& ~~~fieldsMask m)

/-- `V[0:29] ∥ 0b00` (R63, R272): an address with its two low bits dropped. -/
def dropLowTwo (v : Word) : Word := v &&& 0xFFFFFFFC#32

end Sys2Proof.Machine
end

