-- ==== Sys2Proof/Machine/Flags.lean ====
section
/-! DEFINITION. Every flag computation of the spec: CR fields (R178, R179), XER (R180, R181), FPSCR summaries (R27 to R29,
R201), the FPRF codes and the floating compare bits (R32, R39). -/

namespace Sys2Proof.Machine

/-! ### CR fields -/

/-- A CR field from a comparison: LT, GT or EQ, then the summary overflow bit (R178, R179). -/
def orderField (lt gt so : Bool) : BitVec 4 :=
  (if lt then 0b1000#4 else if gt then 0b0100#4 else 0b0010#4) ||| (if so then 0b0001#4 else 0b0000#4)

/-- `record_CR0`: the result compared with zero as a signed quantity (R37, R178). -/
def recordField (r : Word) (so : Bool) : BitVec 4 := orderField (r.slt 0#32) (BitVec.slt 0#32 r) so

/-- `compare` on signed operands (R179). -/
def compareSigned (a b : Word) (so : Bool) : BitVec 4 := orderField (a.slt b) (b.slt a) so

/-- `compare` on unsigned operands (R179). -/
def compareUnsigned (a b : Word) (so : Bool) : BitVec 4 := orderField (a.ult b) (b.ult a) so

/-! ### XER -/

/-- The exact sum `a + b + cin` of an add or subtract instruction taken as a whole (R40, R180). -/
def exactSum (a b : Word) (cin : Nat) : Nat := a.toNat + b.toNat + cin

/-- The carry out of bit 0 (R180): XER[CA] of an add or subtract instruction (R43, R181). -/
def carryOut0 (a b : Word) (cin : Nat) : Bool := decide (2 ^ 32 ≤ exactSum a b cin)

/-- The carry out of bit 1 (R180). -/
def carryOut1 (a b : Word) (cin : Nat) : Bool :=
  decide (2 ^ 31 ≤ exactSum (a &&& 0x7FFFFFFF#32) (b &&& 0x7FFFFFFF#32) cin)

/-- XER[OV] of an add or subtract instruction with OE = 1: the two carries differ (R42, R180). -/
def overflowOut (a b : Word) (cin : Nat) : Bool := carryOut0 a b cin != carryOut1 a b cin

/-- XER[CA] of a shift right algebraic by `n` (R43, R181): whether a 1 bit leaves a negative quantity. No instruction of the
table shifts. -/
def shiftRightCarry (v : Word) (n : Nat) : Bool := v.msb && decide (v.toNat % 2 ^ n ≠ 0)

/-- The bits of XER that are stored (R20, R40): SO, OV, CA, 16:23 and BYTES. -/
def xerMask : Word := 0xE000FF7F#32

/-- XER with CA written (R181). -/
def withCa (xer : Word) (ca : Bool) : Word := putBit xer 2 ca

/-- XER with OV written and SO made sticky (R41, R180). -/
def withOv (xer : Word) (ov : Bool) : Word := putBit (putBit xer 1 ov) 0 (getBit xer 0 || ov)

/-! ### FPSCR -/

/-- The exception bits 3 to 12 and 21 to 23 (R26). -/
def fpExceptionMask : Word := 0x1FF80700#32

/-- The invalid operation exception bits 7 to 12 and 21 to 23 (R29). -/
def fpInvalidMask : Word := 0x01F80700#32

/-- FPSCR[VX] (R29). -/
def vxOf (f : Word) : Bool := f &&& fpInvalidMask != 0#32

/-- FPSCR[FEX] from the exception bits, VX and their enables (R28). -/
def fexOf (f : Word) : Bool :=
  (getBit f 2 && getBit f 24) || (getBit f 3 && getBit f 25) || (getBit f 4 && getBit f 26) ||
    (getBit f 5 && getBit f 27) || (getBit f 6 && getBit f 28)

/-- `fix_summary` (R201): bit 20 reads 0, VX and FEX are the logical ORs. -/
def fixSummary (f : Word) : Word :=
  let f := putBit f 20 false
  let f := putBit f 2 (vxOf f)
  putBit f 1 (fexOf f)

/-- Whether an exception bit goes from 0 to 1 (R27, R203 `rise`). -/
def fpRise (old new : Word) : Bool := ~~~old &&& new &&& fpExceptionMask != 0#32

/-- The bits that mcrfs clears in the field it copies: FX and the exception bits (R202). -/
def mcrfsMask : Word := 0x9FF80700#32

/-- The classes of a floating-point result (R32, Table 2-3). No instruction of the table computes one. -/
inductive ResultClass where
  | quietNaN
  | negInfinity
  | negNormalized
  | negDenormalized
  | negZero
  | posZero
  | posDenormalized
  | posNormalized
  | posInfinity
deriving DecidableEq, Repr

/-- FPRF, FPSCR[15:19], of a result (R32, Table 2-3). -/
def fprfCode (c : ResultClass) : BitVec 5 :=
  match c with
  | .quietNaN => 0b10001#5
  | .negInfinity => 0b01001#5
  | .negNormalized => 0b01000#5
  | .negDenormalized => 0b11000#5
  | .negZero => 0b10010#5
  | .posZero => 0b00010#5
  | .posDenormalized => 0b10100#5
  | .posNormalized => 0b00100#5
  | .posInfinity => 0b00101#5

/-- How two floating-point operands compare (R32, R39). No instruction of the table compares them. -/
inductive FpOrder where
  | less
  | greater
  | equal
  | unordered
deriving DecidableEq, Repr

/-- FPCC and the CR field of a floating-point compare: exactly one of FL, FG, FE, FU (R32, R39). -/
def fpccCode (o : FpOrder) : BitVec 4 :=
  match o with
  | .less => 0b1000#4
  | .greater => 0b0100#4
  | .equal => 0b0010#4
  | .unordered => 0b0001#4

end Sys2Proof.Machine
end

