-- ==== Sys2Proof/Config.lean ====
section
/-! DEFINITION. What an implementation or a platform fixes (the OPEN parameters of 00_scope.md R4 and
92_eei_decisions.md) and the free values (the `any` of R8). -/

namespace Sys2Proof.Config

/-- A fresh unconstrained 16-bit draw (R8 `any`): SRR1[0:15] at exception entry (R305). It has no body. Log 16, 17. -/
opaque anyHalf : Nat → BitVec 16

/-- A fresh unconstrained 32-bit draw (R8 `any`): the high half of an FPR after mffs (R208), SRR0 and SRR1 after a
reset asserted during a run (R350). It has no body. Log 16, 19, 44. -/
opaque anyWord : Nat → Word

/-- A fresh unconstrained bit (R8 `any`): FX in the open case of R203, `dec_req` after a reset asserted during a run
(R350). It has no body. Log 16, 18, 44. -/
opaque anyBit : Nat → Bool

/-- The readings of FPSCR[FX] after mtfsf with FM[0] = 0 or mtfsfi with crfD ≠ 0 raises an exception bit (R203,
parameter `FX_ON_MTFSF`). -/
inductive FxOnMtfsf where
  /-- FX is set: the source's sentence read literally. -/
  | literal
  /-- FX is unchanged: the PowerPC architecture (GK19). -/
  | architecture
  /-- FX is a free value: the spec's default. -/
  | any
deriving DecidableEq, Repr

/-- The kinds of memory access that MEM_MAP distinguishes (R111). -/
inductive Access where
  | read
  | write
  | fetch
deriving DecidableEq, Repr

/-- A run of addresses `first ≤ a < limit` and the accesses the platform allows there (R111, MEM_MAP). -/
structure Region where
  first : Nat
  limit : Nat
  mayRead : Bool
  mayWrite : Bool
  mayFetch : Bool
deriving DecidableEq, Repr

/-- The offset of each exception's handler in the vector table (R302, parameter `VEC`). -/
structure VectorTable where
  systemReset : Word
  machineCheck : Word
  external : Word
  alignment : Word
  program : Word
  fpUnavailable : Word
  decrementer : Word
  systemCall : Word
  trace : Word
  fpAssist : Word
  softwareEmulation : Word
  dataBreakpoint : Word
  instructionBreakpoint : Word
  maskableExternalBreakpoint : Word
  nonMaskableExternalBreakpoint : Word
deriving DecidableEq, Repr

/-- The default table of R302: 0x00600, 0x00900 and 0x00E00 from the source, the rest GK26. PRESUMED, log 29. -/
def defaultVectors : VectorTable where
  systemReset := 0x00100#32
  machineCheck := 0x00200#32
  external := 0x00500#32
  alignment := 0x00600#32
  program := 0x00700#32
  fpUnavailable := 0x00800#32
  decrementer := 0x00900#32
  systemCall := 0x00C00#32
  trace := 0x00D00#32
  fpAssist := 0x00E00#32
  softwareEmulation := 0x01000#32
  dataBreakpoint := 0x01C00#32
  instructionBreakpoint := 0x01D00#32
  maskableExternalBreakpoint := 0x01E00#32
  nonMaskableExternalBreakpoint := 0x01F00#32

/-- The OPEN parameters that the step reads (R4). A run never changes them. Log 1. -/
structure Params where
  /-- `RESET_IP`: MSR[IP] after reset. -/
  resetIp : Bool
  /-- `RESET_ME`: MSR[ME] after reset. -/
  resetMe : Bool
  /-- `RESET_PC`: the address of the first instruction after reset, a multiple of 4. -/
  resetPc : Word
  /-- `HAS_SINGLE_STEP`: whether MSR[SE] traces (D17: it does). -/
  hasSingleStep : Bool
  /-- `FX_ON_MTFSF` (R203). -/
  fxOnMtfsf : FxOnMtfsf
  /-- `VEC` (R302). -/
  vec : VectorTable
  /-- `MEM_MAP` (R111). -/
  memMap : List Region
deriving DecidableEq, Repr

/-- The default of `RESET_PC` (R353, D23): the system reset vector of the table that `RESET_IP` selects. -/
def defaultResetPc (resetIp : Bool) : Word :=
  (if resetIp then 0xFFF00000#32 else 0x00000000#32) + 0x00100#32

/-- The parameters of the machine that `State.reset` describes: the spec's default where it gives one (R353, D17, R203,
R302), RESET_IP = 0, RESET_ME = 0 and the whole space open to every access where it gives none. DESIGN CHOICE, unsafe, log 11, 14. -/
def defaultParams : Params where
  resetIp := false
  resetMe := false
  resetPc := defaultResetPc false
  hasSingleStep := true
  fxOnMtfsf := .any
  vec := defaultVectors
  memMap := [⟨0, 4294967296, true, true, true⟩]

end Sys2Proof.Config
end

