-- ==== Sys2Proof/Machine/State.lean ====
section
/-! DEFINITION. The machine's state, its stops, and the state after reset (10_state.md, 70_reset_and_hazards.md). -/

namespace Sys2Proof.Machine

open Sys2Proof.Config

/-- The stops of the machine that the spec reports as such: none, so nobody raises one. Every abnormal situation is an exception
that is taken (R301), or has no meaning in the spec and is a `Refusal` (R8 `refuse`). 93_implementation_defined.md part 1 gives
no behaviour the treatment `fault`. -/
inductive Fault where
deriving DecidableEq, Repr

/-- The situations to which the spec gives no meaning (R8 `refuse`). -/
inductive Refusal where
  /-- An instruction the model does not cover. Raised by `exec`'s arms only, and no arm is left. Safe. -/
  | notModelled (mnemonic : String)
  /-- An access at an address outside MEM_MAP for that kind of access (R111 `refuse(unmapped_access)`, D3): hardware may take a
  machine check there. Raised by the fetch, by lwz and by the store primitive. Safe. Log 14, 43. -/
  | unmappedAccess
  /-- A step or an access with MSR[LE] = 1 (R103, D5). Raised by the core step and the memory primitives. Safe. Log 21. -/
  | littleEndianMode
  /-- A word that matches no row of R142 (R144). Raised by the fetch. Safe. Log 27. -/
  | instructionNotInSpec
  /-- A fall-through from address 0xFFFF_FFFC (R63, D2). Raised by every instruction that does not branch. Safe. Log 26. -/
  | pcWrap
  /-- A lwz whose address is no multiple of 4 (R104, R286, D6). Safe. Log 22. -/
  | misalignedAccess
  /-- An FPSCR move that leaves FEX = 1 while FE0 or FE1 is set (R210, D13). Raised by mtfsf, mtfsfi, mtfsb0, mtfsb1 and
  mcrfs. Safe. Log 23. -/
  | fexEnabledAfterFpscrMove
  /-- An mtspr to the PVR at supervisor level (R248, D16). Safe. Log 24. -/
  | writeToPvr
  /-- An access at supervisor level to an instruction-cache, development-support or FPECR register, whose fields and
  effects are in absent sections (R249, D16). Raised by mfspr and mtspr. Safe. Log 20. -/
  | registerNotSpecified
  /-- An SPR number, with the direction asked for, that R62 does not provide (R250, D16). Raised by mfspr, mtspr and mftb.
  Safe. Log 24. -/
  | sprNotDefined
  /-- A bcctr with BO[2] = 0 (R273, U26): CTR would be both the count and the target. Safe. Log 25. -/
  | bcctrWithCtrDecrement
  /-- A store to an address that may be fetched (R109, D9). Raised by the store primitive, which no instruction of the
  table uses. Safe. Log 42. -/
  | storeToCode
deriving DecidableEq, Repr

/-- Memory as (address, byte) pairs, addresses strictly rising and no entry equal to what an unlisted address reads as
(`Memory.wf`). -/
abbrev Memory := List Host.Cell

/-- What moves at an instruction boundary (R6): the core, a tick of the time base (R47) or of the decrementer (R54), a change
of the external request line (R312), or a reset (R350). -/
inductive EnvStep where
  | core
  | tbTick
  | decTick
  | extIrq (level : Bool)
  | reset
deriving DecidableEq, Repr

/-- The registers whose fields and effects are in absent sections (R60, R61). The model holds them unchanged and refuses
every access to them (R249, R319). Their width is a DESIGN CHOICE but for FPECR's. Log 20. -/
structure UnspecifiedRegs where
  /-- SPR 560. -/
  iccst : Word
  /-- SPR 561. -/
  icadr : Word
  /-- SPR 562. -/
  icdat : Word
  /-- SPR 144. -/
  cmpa : Word
  /-- SPR 145. -/
  cmpb : Word
  /-- SPR 146. -/
  cmpc : Word
  /-- SPR 147. -/
  cmpd : Word
  /-- SPR 148. -/
  ecr : Word
  /-- SPR 149. -/
  der : Word
  /-- SPR 150. -/
  counta : Word
  /-- SPR 151. -/
  countb : Word
  /-- SPR 152. -/
  cmpe : Word
  /-- SPR 153. -/
  cmpf : Word
  /-- SPR 154. -/
  cmpg : Word
  /-- SPR 155. -/
  cmph : Word
  /-- SPR 156. -/
  lctrl1 : Word
  /-- SPR 157. -/
  lctrl2 : Word
  /-- SPR 158. -/
  ictrl : Word
  /-- SPR 159. -/
  bar : Word
  /-- SPR 630. -/
  dpdr : Word
  /-- SPR 1022. -/
  fpecr : Word
deriving DecidableEq, Repr

/-- The machine (10_state.md). -/
structure State where
  /-- GPR 0 to 31 (R21). -/
  gprs : Vector Word 32
  /-- FPR 0 to 31 (R22). -/
  fprs : Vector DWord 32
  /-- FPSCR (R25). -/
  fpscr : Word
  /-- Condition register (R35). -/
  cr : Word
  /-- XER, SPR 1 (R40). -/
  xer : Word
  /-- Link register, SPR 8 (R45). -/
  lr : Word
  /-- Count register, SPR 9 (R46). -/
  ctr : Word
  /-- Time base: TBU is its high half, TBL its low half (R47). -/
  tb : DWord
  /-- Machine state register (R49). -/
  msr : Word
  /-- DSISR, SPR 18 (R52). -/
  dsisr : Word
  /-- DAR, SPR 19 (R53). -/
  dar : Word
  /-- Decrementer, SPR 22 (R54). -/
  dec : Word
  /-- SRR0, SPR 26 (R55). -/
  srr0 : Word
  /-- SRR1, SPR 27 (R56). -/
  srr1 : Word
  /-- SPRG0 to SPRG3, SPR 272 to 275 (R57). -/
  sprg : Vector Word 4
  /-- PVR, SPR 287, read-only (R58). -/
  pvr : Word
  /-- The registers of R60 and R61. -/
  unspecified : UnspecifiedRegs
  /-- The address of the instruction to execute (R63). -/
  pc : Word
  /-- `dec_req`: a decrementer request is pending (R54, R70). -/
  decReq : Bool
  /-- `ext_req`: the level of the external request line (R70, R312). -/
  extReq : Bool
  /-- Memory (R101, R111). -/
  mem : Memory
  /-- The OPEN parameters of the run (R4). Log 1. -/
  par : Params
  /-- The model's own: the schedule of what moves next (R6). That it is a list, and so finite, is a DESIGN CHOICE, unsafe. Log
  15, 47. -/
  env : List EnvStep
  /-- The model's own: how many free values have been drawn (R8 `any`). Log 16. -/
  draws : Nat
deriving DecidableEq, Repr

/-- The machine right after reset (R75, R350). The spec's: MSR but for ME and IP, and pc by the default of R353. Every other
value is the model's choice, UNSAFE, named in log 2, 3, 9, 10, 11, 13, 14, 15, 16, 20: R75 forbids a proof to assume it. -/
def State.reset : State where
  gprs := Vector.replicate 32 0#32
  fprs := Vector.replicate 32 0#64
  fpscr := 0#32
  cr := 0#32
  xer := 0#32
  lr := 0#32
  ctr := 0#32
  tb := 0#64
  msr := 0#32
  dsisr := 0#32
  dar := 0#32
  dec := 0#32
  srr0 := 0#32
  srr1 := 0#32
  sprg := Vector.replicate 4 0#32
  pvr := 0#32
  unspecified :=
    { iccst := 0#32, icadr := 0#32, icdat := 0#32, cmpa := 0#32, cmpb := 0#32, cmpc := 0#32, cmpd := 0#32, ecr := 0#32,
      der := 0#32, counta := 0#32, countb := 0#32, cmpe := 0#32, cmpf := 0#32, cmpg := 0#32, cmph := 0#32,
      lctrl1 := 0#32, lctrl2 := 0#32, ictrl := 0#32, bar := 0#32, dpdr := 0#32, fpecr := 0#32 }
  pc := defaultResetPc false
  decReq := false
  extReq := false
  mem := []
  par := defaultParams
  env := []
  draws := 0

end Sys2Proof.Machine
end

