-- ==== Sys2Proof/Machine/Ops.lean ====
section
/-! DEFINITION. The named operations over registers, memory, special registers and exceptions. -/

namespace Sys2Proof.Machine

open Sys2Proof.Config

/-- The outcome of an operation that may stop. -/
abbrev Result (α : Type) := Host.Outcome α Fault Refusal

/-- `o`, then `k` on its value; a stop of `o` stands. -/
def andThen {α β : Type} (o : Result α) (k : α → Result β) : Result β :=
  match o with
  | .next a => k a
  | .fault r => .fault r
  | .refused r => .refused r

/-! ### General, floating-point and condition registers -/

/-- `x[r]` (R8, R21). -/
def State.gpr (s : State) (r : Reg) : Word := s.gprs.get r

/-- `x[r] <- v` (R8, R21): no GPR is hardwired. -/
def State.setGpr (s : State) (r : Reg) (v : Word) : State := { s with gprs := s.gprs.set r.val v r.isLt }

/-- `f[r]` (R8, R22). -/
def State.fpr (s : State) (r : Reg) : DWord := s.fprs.get r

/-- `f[r] <- v` (R8, R22). -/
def State.setFpr (s : State) (r : Reg) (v : DWord) : State := { s with fprs := s.fprs.set r.val v r.isLt }

/-- Write of CR field `k` (R35, R36). -/
def State.setCrField (s : State) (k : FieldNo) (x : BitVec 4) : State := { s with cr := putNibble s.cr k x }

/-- `record_CR0` of the result `r`, with XER[SO] as the instruction leaves it (R178). -/
def State.recordCr0 (s : State) (r : Word) : State := s.setCrField 0 (recordField r (getBit s.xer 0))

/-- `record_CR1`: CR[4:7] <- FPSCR[0:3] (R38, R212). -/
def State.recordCr1 (s : State) : State := s.setCrField 1 (getNibble s.fpscr 0)

/-! ### XER, MSR, time base and decrementer -/

/-- The XER as it reads: the reserved bits are 0 (R20, R40). -/
def State.readXer (s : State) : Word := s.xer &&& xerMask

/-- A write of the XER: the reserved bits are ignored (R20, R40). -/
def State.setXer (s : State) (v : Word) : State := { s with xer := v &&& xerMask }

/-- The defined bits of the MSR (R49). -/
def msrMask : Word := 0x0001FF43#32

/-- The MSR as it reads: the reserved bits are 0 (R20, R49). -/
def State.readMsr (s : State) : Word := s.msr &&& msrMask

/-- A write of the MSR: the reserved bits are ignored (R20, R49). -/
def State.setMsr (s : State) (v : Word) : State := { s with msr := v &&& msrMask }

/-- MSR[ILE] (R50). -/
def State.ile (s : State) : Bool := getBit s.msr 15

/-- MSR[EE] (R50). -/
def State.ee (s : State) : Bool := getBit s.msr 16

/-- MSR[PR]: user level (R50, R320). -/
def State.pr (s : State) : Bool := getBit s.msr 17

/-- MSR[FP] (R50). -/
def State.fp (s : State) : Bool := getBit s.msr 18

/-- MSR[SE] (R50). -/
def State.se (s : State) : Bool := getBit s.msr 21

/-- MSR[BE] (R50). -/
def State.be (s : State) : Bool := getBit s.msr 22

/-- MSR[IP] (R50). -/
def State.ip (s : State) : Bool := getBit s.msr 25

/-- MSR[LE] (R50). -/
def State.le (s : State) : Bool := getBit s.msr 31

/-- Floating-point precise mode: MSR[FE0] | MSR[FE1] (R51). -/
def State.fpPrecise (s : State) : Bool := getBit s.msr 20 || getBit s.msr 23

/-- TBU, the high half of the time base (R47). -/
def State.tbu (s : State) : Word := s.tb.extractLsb' 32 32

/-- TBL, the low half of the time base (R47). -/
def State.tbl (s : State) : Word := s.tb.extractLsb' 0 32

/-- A write of TBL leaves TBU unchanged (R48, R222). -/
def State.setTbl (s : State) (v : Word) : State := { s with tb := s.tbu ++ v }

/-- A write of TBU leaves TBL unchanged (R48, R223). -/
def State.setTbu (s : State) (v : Word) : State := { s with tb := v ++ s.tbl }

/-- `TBtick`: one increment modulo 2^64 (R47). -/
def State.tbTick (s : State) : State := { s with tb := s.tb + 1#64 }

/-- A new value of the DEC, by software or by counting: a change of bit 0 from zero to one signals a request, and nothing
here cancels one (R54, R224). -/
def State.setDec (s : State) (v : Word) : State :=
  { s with dec := v, decReq := s.decReq || (!getBit s.dec 0 && getBit v 0) }

/-- `DECtick`: one decrement modulo 2^32 (R54). -/
def State.decTick (s : State) : State := s.setDec (s.dec - 1#32)

/-! ### Memory -/

/-- What a byte that no entry lists reads as. The spec gives no contents (R108 "the initial memory"): DESIGN CHOICE,
unsafe, log 13. -/
def unlistedByte : Byte := 0#8

/-- `M[a]` (R111). -/
def Memory.read (m : Memory) (a : Nat) : Byte :=
  match m with
  | [] => unlistedByte
  | (b, v) :: rest => if a = b then v else Memory.read rest a

/-- `M[a] <- v` (R111), keeping the canonical form: writing what an unlisted address reads as lists nothing. -/
def Memory.write (m : Memory) (a : Nat) (v : Byte) : Memory :=
  match m with
  | [] => if v = unlistedByte then [] else [(a, v)]
  | (b, u) :: rest =>
    if a < b then (if v = unlistedByte then (b, u) :: rest else (a, v) :: (b, u) :: rest)
    else if a = b then (if v = unlistedByte then rest else (a, v) :: rest)
    else (b, u) :: Memory.write rest a v

/-- The addresses of `m` are strictly rising from `lo`, below 2^32, and no entry equals what an unlisted address reads as. -/
def Memory.wfFrom (lo : Nat) (m : Memory) : Bool :=
  match m with
  | [] => true
  | (a, v) :: rest => decide (lo ≤ a) && decide (a < 4294967296) && decide (v ≠ unlistedByte) && Memory.wfFrom (a + 1) rest

/-- The canonical form: equal memories are equal lists. -/
def Memory.wf (m : Memory) : Bool := Memory.wfFrom 0 m

/-- The `n` bytes from address `a` on; address arithmetic is modulo 2^32 (R111). -/
def Memory.readBytes (m : Memory) (a : Word) (n : Nat) : List Byte :=
  match n with
  | 0 => []
  | n + 1 => Memory.read m a.toNat :: Memory.readBytes m (a + 1#32) n

/-- The bytes `vs` stored from address `a` on; address arithmetic is modulo 2^32 (R111). -/
def Memory.writeBytes (m : Memory) (a : Word) (vs : List Byte) : Memory :=
  match vs with
  | [] => m
  | v :: rest => Memory.writeBytes (Memory.write m a.toNat v) (a + 1#32) rest

/-- The value of bytes in big-endian order: the first is the most significant (R102, R111). -/
def bigEndian (vs : List Byte) : Nat := vs.foldl (fun acc v => acc * 256 + v.toNat) 0

/-- Whether a region lets address `a` be accessed so (R111). -/
def allows (r : Region) (k : Access) (a : Nat) : Bool :=
  decide (r.first ≤ a) && decide (a < r.limit) &&
    (match k with
      | .read => r.mayRead
      | .write => r.mayWrite
      | .fetch => r.mayFetch)

/-- Whether address `a` is in MEM_MAP for an access (R111). -/
def State.mapped (s : State) (k : Access) (a : Nat) : Bool := s.par.memMap.any (fun r => allows r k a)

/-- Whether the `n` bytes from address `a` on are all in MEM_MAP for an access (R111). -/
def State.mappedAll (s : State) (k : Access) (a : Word) (n : Nat) : Bool :=
  match n with
  | 0 => true
  | n + 1 => s.mapped k a.toNat && s.mappedAll k (a + 1#32) n

/-- `MemRead(a, n)` as bytes, for a load or a fetch (R111): defined for MSR[LE] = 0 only (R103). -/
def State.memRead (s : State) (k : Access) (a : Word) (n : Nat) : Result (List Byte) :=
  if s.le then .refused .littleEndianMode
  else if s.mappedAll k a n then .next (Memory.readBytes s.mem a n)
  else .refused .unmappedAccess

/-- Whether one of the `n` bytes from address `a` on may be fetched as an instruction (R109). -/
def State.fetchable (s : State) (a : Word) (n : Nat) : Bool :=
  match n with
  | 0 => false
  | n + 1 => s.mapped .fetch a.toNat || s.fetchable (a + 1#32) n

/-- `MemWrite(a, n, v)` as bytes (R111): defined for MSR[LE] = 0 only (R103), inside MEM_MAP, and never to code (R109).
No instruction of the table stores. -/
def State.memWrite (s : State) (a : Word) (vs : List Byte) : Result State :=
  if s.le then .refused .littleEndianMode
  else if !s.mappedAll .write a vs.length then .refused .unmappedAccess
  else if s.fetchable a vs.length then .refused .storeToCode
  else .next { s with mem := Memory.writeBytes s.mem a vs }

/-- The instruction at the pc (R300 steps 4 and 5). -/
def State.fetch (s : State) : Result Instr :=
  andThen (s.memRead .fetch s.pc 4) (fun bytes =>
    match decodeBytes bytes with
    | .ok (i, _) => .next i
    | .error _ => .refused .instructionNotInSpec)

/-! ### The end of an instruction -/

/-- `pc <- pc + 4`; a fall-through from 0xFFFF_FFFC has no meaning (R63). -/
def advance (s : State) : Result State :=
  if s.pc = 0xFFFFFFFC#32 then .refused .pcWrap else .next { s with pc := s.pc + 4#32 }

/-! ### Taking an exception -/

/-- The exceptions of R301 and R302. -/
inductive Exc where
  | systemReset
  | machineCheck
  | external
  | alignment
  | program
  | fpUnavailable
  | decrementer
  | systemCall
  | trace
  | fpAssist
  | softwareEmulation
  | dataBreakpoint
  | instructionBreakpoint
  | maskableExternalBreakpoint
  | nonMaskableExternalBreakpoint
deriving DecidableEq, Repr

/-- `VEC(e)` (R302). -/
def vectorOffset (t : VectorTable) (e : Exc) : Word :=
  match e with
  | .systemReset => t.systemReset
  | .machineCheck => t.machineCheck
  | .external => t.external
  | .alignment => t.alignment
  | .program => t.program
  | .fpUnavailable => t.fpUnavailable
  | .decrementer => t.decrementer
  | .systemCall => t.systemCall
  | .trace => t.trace
  | .fpAssist => t.fpAssist
  | .softwareEmulation => t.softwareEmulation
  | .dataBreakpoint => t.dataBreakpoint
  | .instructionBreakpoint => t.instructionBreakpoint
  | .maskableExternalBreakpoint => t.maskableExternalBreakpoint
  | .nonMaskableExternalBreakpoint => t.nonMaskableExternalBreakpoint

/-- Where the vector table starts, by MSR[IP] (R50, R302). -/
def vectorBase (ip : Bool) : Word := if ip then 0xFFF00000#32 else 0x00000000#32

/-- `vector(e)`: the address of the handler's first instruction (R302). -/
def State.vector (s : State) (e : Exc) : Word := vectorBase s.ip + vectorOffset s.par.vec e

/-- The MSR bits that entry keeps: ILE, ME and IP (R304). -/
def entryKeepMask : Word := 0x00011040#32

/-- The MSR after entry: ILE, ME and IP kept, LE := ILE, all else 0 (R304). -/
def entryMsr (m : Word) : Word := putBit (m &&& entryKeepMask) 31 (getBit m 15)

/-- `enter e(SRR0 <- a)` (R304): the return address and MSR[16:31] are saved, SRR1[0:15] is a free value (R305), the MSR
becomes `entryMsr`, the decrementer's entry takes its request back (R311), and the pc goes to the vector. -/
def enter (e : Exc) (a : Word) (s : State) : State :=
  { s with
    srr0 := a
    srr1 := anyHalf s.draws ++ s.readMsr.extractLsb' 0 16
    msr := entryMsr s.msr
    decReq := s.decReq && e != .decrementer
    pc := s.vector e
    draws := s.draws + 1 }

/-- The address saved in SRR0 by an exception that an instruction raises (R306): the next instruction for sc, the
instruction itself for the others. -/
def State.resume (s : State) (e : Exc) : Word := if e = .systemCall then s.pc + 4#32 else s.pc

/-- `raise e`: none of the instruction's writes, then entry (R8, R304). -/
def raise (e : Exc) (s : State) : State := enter e (s.resume e) s

/-- The context that rfi restores (R253): MSR[16:31] from SRR1[16:31], MSR[ILE] unchanged, the pc from SRR0 without its two
low bits. -/
def returnFromException (s : State) : State :=
  { s with
    msr := (s.msr &&& 0x00010000#32) ||| (s.srr1 &&& 0x0000FF43#32)
    pc := dropLowTwo s.srr0 }

/-- Whether an SPR number is privileged: its bit of weight 16 (R62, R162). -/
def privilegedSpr (n : Nat) : Bool := n.testBit 4

/-- An mfspr from EIE, EID or NRI (R59, R247). -/
def emulatedRead (n : Nat) : Bool := n == 80 || n == 81 || n == 82

/-- A privileged instruction or SPR at user level takes the program exception (R315, R320). -/
def privileged (s : State) : Option Exc := if s.pr then some .program else none

/-- An SPR access at user level (R162 step 1). -/
def privilegedAccess (n : Nat) (s : State) : Option Exc := if s.pr && privilegedSpr n then some .program else none

/-- A floating-point instruction with MSR[FP] = 0 (R200, R316). -/
def needsFp (s : State) : Option Exc := if s.fp then none else some .fpUnavailable

/-- The exception that instruction `i` raises in `s`, if any (R323: at most one, by the instruction's own rule; for mfspr the
privilege check stands first, R162). -/
def syncException (i : Instr) (s : State) : Option Exc :=
  match i with
  | .cmpli _ _ _ => none
  | .cmpi _ _ _ => none
  | .addicDot _ _ _ => none
  | .addi _ _ _ => none
  | .bc _ _ _ _ _ => none
  | .sc => some .systemCall
  | .b _ _ _ => none
  | .mcrf _ _ => none
  | .bclr _ _ _ => none
  | .crnor _ _ _ => none
  | .rfi => privileged s
  | .crandc _ _ _ => none
  | .crxor _ _ _ => none
  | .crnand _ _ _ => none
  | .crand _ _ _ => none
  | .creqv _ _ _ => none
  | .crorc _ _ _ => none
  | .cror _ _ _ => none
  | .bcctr _ _ _ => none
  | .andiDot _ _ _ => none
  | .andisDot _ _ _ => none
  | .cmp _ _ _ => none
  | .subfc _ _ _ _ _ => none
  | .mfcr _ => none
  | .cmpl _ _ _ => none
  | .mfmsr _ => privileged s
  | .mtcrf _ _ => none
  | .mtmsr _ => privileged s
  | .mfspr _ n => (privilegedAccess n s).or (if emulatedRead n then some .softwareEmulation else none)
  | .mftb _ n => privilegedAccess n s
  | .mtspr n _ => privilegedAccess n s
  | .mcrxr _ => none
  | .lwz _ _ _ => none
  | .mtfsb1 _ _ => needsFp s
  | .mcrfs _ _ => needsFp s
  | .mtfsb0 _ _ => needsFp s
  | .mtfsfi _ _ _ => needsFp s
  | .mffs _ _ => needsFp s
  | .mtfsf _ _ _ => needsFp s

/-- The rule of instruction `i`: its exception where it raises one, else its effect (R300 step 7). -/
def unlessRaised (i : Instr) (s : State) (effect : Result State) : Result State :=
  match syncException i s with
  | some e => .next (raise e s)
  | none => effect

/-! ### Special-purpose registers -/

/-- The SPR numbers of R249: instruction cache, development support and FPECR. -/
def unspecifiedSpr (n : Nat) : Bool :=
  (decide (144 ≤ n) && decide (n ≤ 159)) || n == 560 || n == 561 || n == 562 || n == 630 || n == 1022

/-- The value of SPR `n` for mfspr, at a level that may read it (R160, R225, R243, R249, R250). EIE, EID and NRI are not read:
`syncException` takes them before (R247). -/
def readSpr (n : Nat) (s : State) : Result Word :=
  match n with
  | 1 => .next s.readXer
  | 8 => .next s.lr
  | 9 => .next s.ctr
  | 18 => .next s.dsisr
  | 19 => .next s.dar
  | 22 => .next s.dec
  | 26 => .next s.srr0
  | 27 => .next s.srr1
  | 272 => .next (s.sprg.get 0)
  | 273 => .next (s.sprg.get 1)
  | 274 => .next (s.sprg.get 2)
  | 275 => .next (s.sprg.get 3)
  | 287 => .next s.pvr
  | _ => if unspecifiedSpr n then .refused .registerNotSpecified else .refused .sprNotDefined

/-- MSR[EE] and MSR[RI] written together (R246, Table 2-14). -/
def State.setEeRi (s : State) (ee ri : Bool) : State := { s with msr := putBit (putBit s.msr 16 ee) 30 ri }

/-- `SPRGk <- v` (R57, R244). -/
def State.setSprg (s : State) (k : Fin 4) (v : Word) : State := { s with sprg := s.sprg.set k.val v k.isLt }

/-- The effect of mtspr on SPR `n`, at a level that may write it (R161, R222 to R224, R244, R246, R248 to R250). ICDAT, SPR 562,
is read only: R62 and R250 give it no write. -/
def writeSpr (n : Nat) (v : Word) (s : State) : Result State :=
  match n with
  | 1 => .next (s.setXer v)
  | 8 => .next { s with lr := v }
  | 9 => .next { s with ctr := v }
  | 18 => .next { s with dsisr := v }
  | 19 => .next { s with dar := v }
  | 22 => .next (s.setDec v)
  | 26 => .next { s with srr0 := v }
  | 27 => .next { s with srr1 := v }
  | 80 => .next (s.setEeRi true true)
  | 81 => .next (s.setEeRi false true)
  | 82 => .next (s.setEeRi false false)
  | 272 => .next (s.setSprg 0 v)
  | 273 => .next (s.setSprg 1 v)
  | 274 => .next (s.setSprg 2 v)
  | 275 => .next (s.setSprg 3 v)
  | 284 => .next (s.setTbl v)
  | 285 => .next (s.setTbu v)
  | 287 => .refused .writeToPvr
  | _ => if unspecifiedSpr n && n != 562 then .refused .registerNotSpecified else .refused .sprNotDefined

/-- The half of the time base that mftb reads (R220, R226). -/
def readTb (n : Nat) (s : State) : Result Word :=
  match n with
  | 268 => .next s.tbl
  | 269 => .next s.tbu
  | _ => .refused .sprNotDefined

/-! ### FPSCR -/

/-- The state in which the FPSCR holds `f`, FX being fixed by R203 for an instruction that did not write it explicitly: a rise of
an exception bit with FX = 0 leaves FX to `FX_ON_MTFSF`, whose `any` is a free value. -/
def State.setFpscrImplicitFx (s : State) (f : Word) : State :=
  if fpRise s.fpscr f && !getBit f 0 then
    match s.par.fxOnMtfsf with
    | .literal => { s with fpscr := putBit f 0 true }
    | .architecture => { s with fpscr := f }
    | .any => { s with fpscr := putBit f 0 (anyBit s.draws), draws := s.draws + 1 }
  else { s with fpscr := f }

/-- The end of an FPSCR move (R210, R212): refused where an enabled exception stands in precise mode, else CR1 is recorded
if Rc = 1. -/
def finishFpscr (rc : Bool) (s : State) : Result State :=
  if fexOf s.fpscr && s.fpPrecise then .refused .fexEnabledAfterFpscrMove
  else advance (if rc then s.recordCr1 else s)

/-! ### Reset and the other agents -/

/-- The MSR after reset (R350): ME and IP by the parameters, all else 0. -/
def resetMsr (p : Params) : Word := putBit (putBit 0#32 19 p.resetMe) 25 p.resetIp

/-- A reset asserted between two steps of a run (R350): MSR, pc; SRR0, SRR1 and `dec_req` are free values; every other
register is unchanged. -/
def assertReset (s : State) : State :=
  { s with
    msr := resetMsr s.par
    srr0 := anyWord s.draws
    srr1 := anyWord (s.draws + 1)
    decReq := anyBit s.draws
    pc := s.par.resetPc
    draws := s.draws + 2 }

end Sys2Proof.Machine
end

