-- ==== Sys2Proof/Machine/Operands.lean ====
section
/-! DEFINITION. Operand forms: immediates, `(rA|0)`, effective addresses, branch conditions and targets (R141, R269). -/

namespace Sys2Proof.Machine

/-- A signed immediate or displacement as a 32-bit value (R141 `sext_32`). -/
def signedWord (x : Int) : Word := BitVec.ofInt 32 x

/-- An unsigned immediate as a 32-bit value (R141 `zext_32`). -/
def unsignedWord (x : Nat) : Word := BitVec.ofNat 32 x

/-- The shifted unsigned immediate of andis. (R141): `UIMM ∥ (16)0`. -/
def shiftedWord (x : Nat) : Word := unsignedWord x <<< 16

/-- `(rA|0)`: an rA field of 0 means the value 0 (R141, R280, R286). -/
def State.gprOrZero (s : State) (rA : Reg) : Word := if rA = 0 then 0#32 else s.gpr rA

/-- The effective address `d(rA)` (R286). -/
def State.effectiveAddress (s : State) (rA : Reg) (d : Int) : Word := s.gprOrZero rA + signedWord d

/-- `CR[i]` (R35). -/
def State.crBit (s : State) (i : BitNo) : Bool := getBit s.cr i.val

/-- The target of b and bc (R270, R271): relative to the instruction, or absolute. -/
def State.branchTarget (s : State) (disp : Int) (aa : Bool) : Word :=
  if aa then signedWord disp else s.pc + signedWord disp

/-- The CR part of a branch condition (R269): BO[0], or CR[BI] = BO[1]. -/
def State.condOk (s : State) (bo : BitVec 5) (bi : BitNo) : Bool := bo.getMsbD 0 || s.crBit bi == bo.getMsbD 1

/-- CTR as a branch that counts leaves it (R269): decremented modulo 2^32 when BO[2] = 0. -/
def State.countedCtr (s : State) (bo : BitVec 5) : Word := if bo.getMsbD 2 then s.ctr else s.ctr - 1#32

/-- The CTR part of a branch condition, on the CTR after the decrement (R269). -/
def State.ctrOk (s : State) (bo : BitVec 5) : Bool :=
  bo.getMsbD 2 || (s.countedCtr bo != 0#32) != bo.getMsbD 3

/-- Whether bc and bclr branch (R269 `branch_cond`). BO[4] is a hint with no effect. -/
def State.branchTaken (s : State) (bo : BitVec 5) (bi : BitNo) : Bool := s.ctrOk bo && s.condOk bo bi

/-- The end of a branch (R269): LR takes the address of the next instruction if LK = 1, taken or not; the pc goes to the target
or falls through. -/
def finishBranch (lk taken : Bool) (target : Word) (s : State) : Result State :=
  let t : State := if lk then { s with lr := s.pc + 4#32 } else s
  if taken then .next { t with pc := target } else advance t

/-- A CR logical instruction (R176): both sources are read before the destination is written. -/
def State.crLogic (s : State) (op : Bool → Bool → Bool) (crbD crbA crbB : BitNo) : State :=
  { s with cr := putBit s.cr crbD.val (op (s.crBit crbA) (s.crBit crbB)) }

end Sys2Proof.Machine
end

