-- ==== Sys2Proof/Machine/Branch.lean ====
section
/-! DEFINITION. The branches (44_supporting.md section 1). -/

namespace Sys2Proof.Machine

/-- `b[l][a] target` (R270). -/
def execB (disp : Int) (aa lk : Bool) (s : State) : Result State := finishBranch lk true (s.branchTarget disp aa) s

/-- `bc[l][a] BO,BI,target` (R271). -/
def execBc (bo : BitVec 5) (bi : BitNo) (disp : Int) (aa lk : Bool) (s : State) : Result State :=
  finishBranch lk (s.branchTaken bo bi) (s.branchTarget disp aa) { s with ctr := s.countedCtr bo }

/-- `bclr[l] BO,BI` (R272): the old LR is the target. -/
def execBclr (bo : BitVec 5) (bi : BitNo) (lk : Bool) (s : State) : Result State :=
  finishBranch lk (s.branchTaken bo bi) (dropLowTwo s.lr) { s with ctr := s.countedCtr bo }

/-- `bcctr[l] BO,BI` (R273): the form that would count down its own target has no meaning. -/
def execBcctr (bo : BitVec 5) (bi : BitNo) (lk : Bool) (s : State) : Result State :=
  if bo.getMsbD 2 then finishBranch lk (s.condOk bo bi) (dropLowTwo s.ctr) s else .refused .bcctrWithCtrDecrement

end Sys2Proof.Machine
end

