-- ==== Sys2Proof/Machine/CrMoves.lean ====
section
/-! DEFINITION. Moves to and from the CR and the CR logical instructions (40_cr_xer_lr_ctr.md sections 2 and 3). -/

namespace Sys2Proof.Machine

/-- `mfcr rD` (R164). -/
def execMfcr (rD : Reg) (s : State) : Result State := advance (s.setGpr rD s.cr)

/-- `mtcrf CRM,rS` (R165). -/
def execMtcrf (crm : BitVec 8) (rS : Reg) (s : State) : Result State :=
  advance { s with cr := putFields s.cr (s.gpr rS) crm }

/-- `mcrf crfD,crfS` (R166). -/
def execMcrf (crfD crfS : FieldNo) (s : State) : Result State := advance (s.setCrField crfD (getNibble s.cr crfS))

/-- `mcrxr crfD` (R167): XER[0:3] is copied, then cleared. -/
def execMcrxr (crfD : FieldNo) (s : State) : Result State :=
  advance { s.setCrField crfD (getNibble s.readXer 0) with xer := putNibble s.xer 0 0#4 }

/-- `crand` (R168). -/
def execCrand (crbD crbA crbB : BitNo) (s : State) : Result State :=
  advance (s.crLogic (fun a b => a && b) crbD crbA crbB)

/-- `cror` (R169). -/
def execCror (crbD crbA crbB : BitNo) (s : State) : Result State :=
  advance (s.crLogic (fun a b => a || b) crbD crbA crbB)

/-- `crxor` (R170). -/
def execCrxor (crbD crbA crbB : BitNo) (s : State) : Result State :=
  advance (s.crLogic (fun a b => a ^^ b) crbD crbA crbB)

/-- `crnand` (R171). -/
def execCrnand (crbD crbA crbB : BitNo) (s : State) : Result State :=
  advance (s.crLogic (fun a b => !(a && b)) crbD crbA crbB)

/-- `crnor` (R172). -/
def execCrnor (crbD crbA crbB : BitNo) (s : State) : Result State :=
  advance (s.crLogic (fun a b => !(a || b)) crbD crbA crbB)

/-- `creqv` (R173). -/
def execCreqv (crbD crbA crbB : BitNo) (s : State) : Result State :=
  advance (s.crLogic (fun a b => !(a ^^ b)) crbD crbA crbB)

/-- `crandc` (R174). -/
def execCrandc (crbD crbA crbB : BitNo) (s : State) : Result State :=
  advance (s.crLogic (fun a b => a && !b) crbD crbA crbB)

/-- `crorc` (R175). -/
def execCrorc (crbD crbA crbB : BitNo) (s : State) : Result State :=
  advance (s.crLogic (fun a b => a || !b) crbD crbA crbB)

end Sys2Proof.Machine
end

