-- ==== Sys2Proof/Machine/Fpscr.lean ====
section
/-! DEFINITION. The FPSCR instructions (41_fpscr.md). Each is refused its effect where MSR[FP] = 0 (R200). -/

namespace Sys2Proof.Machine

open Sys2Proof.Config

/-- `mcrfs crfD,crfS` (R202): the field is copied as it was, then FX and the exception bits among the copied ones are cleared. -/
def execMcrfs (crfD crfS : FieldNo) (s : State) : Result State :=
  unlessRaised (.mcrfs crfD crfS) s
    (finishFpscr false
      { s.setCrField crfD (getNibble s.fpscr crfS) with
        fpscr := fixSummary (s.fpscr &&& ~~~(nibbleMask crfS &&& mcrfsMask)) })

/-- `mtfsf[.] FM,frB` (R204): the fields that FM selects come from the low half of the FPR. With FM[0] = 1 FX is explicit and
stands (R203, D12). -/
def execMtfsf (fm : BitVec 8) (frB : Reg) (rc : Bool) (s : State) : Result State :=
  let f := fixSummary (putFields s.fpscr ((s.fpr frB).extractLsb' 0 32) fm)
  unlessRaised (.mtfsf fm frB rc) s
    (finishFpscr rc (if fm.getMsbD 0 then { s with fpscr := f } else s.setFpscrImplicitFx f))

/-- `mtfsfi[.] crfD,IMM` (R205). With crfD = 0 FX is explicit and stands (R203, D12). -/
def execMtfsfi (crfD : FieldNo) (imm : BitVec 4) (rc : Bool) (s : State) : Result State :=
  let f := fixSummary (putNibble s.fpscr crfD imm)
  unlessRaised (.mtfsfi crfD imm rc) s
    (finishFpscr rc (if crfD = 0 then { s with fpscr := f } else s.setFpscrImplicitFx f))

/-- `mtfsb0[.] crbD` (R206): FEX and VX cannot be cleared explicitly. -/
def execMtfsb0 (crbD : BitNo) (rc : Bool) (s : State) : Result State :=
  let f := if crbD = 1 ∨ crbD = 2 then s.fpscr else putBit s.fpscr crbD.val false
  unlessRaised (.mtfsb0 crbD rc) s (finishFpscr rc { s with fpscr := fixSummary f })

/-- `mtfsb1[.] crbD` (R207): FEX, VX and the reserved bit cannot be set; the rise of an exception bit sets FX (R203). -/
def execMtfsb1 (crbD : BitNo) (rc : Bool) (s : State) : Result State :=
  let f := if crbD = 1 ∨ crbD = 2 ∨ crbD = 20 then s.fpscr else putBit s.fpscr crbD.val true
  let f := if fpRise s.fpscr f then putBit f 0 true else f
  unlessRaised (.mtfsb1 crbD rc) s (finishFpscr rc { s with fpscr := fixSummary f })

/-- `mffs[.] frD` (R208): the low half of the FPR is the FPSCR, the high half a free value. -/
def execMffs (frD : Reg) (rc : Bool) (s : State) : Result State :=
  let t : State := { s.setFpr frD (anyWord s.draws ++ s.fpscr) with draws := s.draws + 1 }
  unlessRaised (.mffs frD rc) s (advance (if rc then t.recordCr1 else t))

end Sys2Proof.Machine
end

