-- ==== Sys2Proof/Machine/Integer.lean ====
section
/-! DEFINITION. Compares and integer instructions (44_supporting.md sections 2 and 3). -/

namespace Sys2Proof.Machine

/-- `cmp crfD,0,rA,rB` (R274). -/
def execCmp (crfD : FieldNo) (rA rB : Reg) (s : State) : Result State :=
  advance (s.setCrField crfD (compareSigned (s.gpr rA) (s.gpr rB) (getBit s.xer 0)))

/-- `cmpi crfD,0,rA,SIMM` (R275). -/
def execCmpi (crfD : FieldNo) (rA : Reg) (simm : Int) (s : State) : Result State :=
  advance (s.setCrField crfD (compareSigned (s.gpr rA) (signedWord simm) (getBit s.xer 0)))

/-- `cmpl crfD,0,rA,rB` (R276). -/
def execCmpl (crfD : FieldNo) (rA rB : Reg) (s : State) : Result State :=
  advance (s.setCrField crfD (compareUnsigned (s.gpr rA) (s.gpr rB) (getBit s.xer 0)))

/-- `cmpli crfD,0,rA,UIMM` (R277). -/
def execCmpli (crfD : FieldNo) (rA : Reg) (uimm : Nat) (s : State) : Result State :=
  advance (s.setCrField crfD (compareUnsigned (s.gpr rA) (unsignedWord uimm) (getBit s.xer 0)))

/-- `addi rD,rA,SIMM` (R280). -/
def execAddi (rD rA : Reg) (simm : Int) (s : State) : Result State :=
  advance (s.setGpr rD (s.gprOrZero rA + signedWord simm))

/-- `addic. rD,rA,SIMM` (R281): an rA field of 0 is GPR 0 here. -/
def execAddicDot (rD rA : Reg) (simm : Int) (s : State) : Result State :=
  let a := s.gpr rA
  let b := signedWord simm
  let t : State := { s.setGpr rD (a + b) with xer := withCa s.xer (carryOut0 a b 0) }
  advance (t.recordCr0 (a + b))

/-- `andi. rA,rS,UIMM` (R282). -/
def execAndiDot (rA rS : Reg) (uimm : Nat) (s : State) : Result State :=
  let r := s.gpr rS &&& unsignedWord uimm
  advance ((s.setGpr rA r).recordCr0 r)

/-- `andis. rA,rS,UIMM` (R283). -/
def execAndisDot (rA rS : Reg) (uimm : Nat) (s : State) : Result State :=
  let r := s.gpr rS &&& shiftedWord uimm
  advance ((s.setGpr rA r).recordCr0 r)

/-- `subfc[o][.] rD,rA,rB` (R284): the sum of three values, the flags on the entire operation. -/
def execSubfc (rD rA rB : Reg) (oe rc : Bool) (s : State) : Result State :=
  let a := ~~~s.gpr rA
  let b := s.gpr rB
  let r := a + b + 1#32
  let xer := withCa s.xer (carryOut0 a b 1)
  let t : State := { s.setGpr rD r with xer := if oe then withOv xer (overflowOut a b 1) else xer }
  advance (if rc then t.recordCr0 r else t)

end Sys2Proof.Machine
end

