-- ==== Sys2Proof/Machine/Load.lean ====
section
/-! DEFINITION. lwz (44_supporting.md section 4). -/

namespace Sys2Proof.Machine

/-- `lwz rD,d(rA)` (R286): a misaligned address has no meaning (R104). -/
def execLwz (rD rA : Reg) (d : Int) (s : State) : Result State :=
  let ea := s.effectiveAddress rA d
  if ea.toNat % 4 ≠ 0 then .refused .misalignedAccess
  else andThen (s.memRead .read ea 4) (fun bytes => advance (s.setGpr rD (BitVec.ofNat 32 (bigEndian bytes))))

end Sys2Proof.Machine
end

