-- ==== Sys2Proof/Machine/SprMoves.lean ====
section
/-! DEFINITION. mfspr, mtspr, mftb (40_cr_xer_lr_ctr.md section 1, 42_timebase_dec.md, 43_supervisor.md section 2). -/

namespace Sys2Proof.Machine

/-- `mfspr rD,n` (R160, R162, R225, R243, R247, R249, R250). -/
def execMfspr (rD : Reg) (n : Nat) (s : State) : Result State :=
  unlessRaised (.mfspr rD n) s (andThen (readSpr n s) (fun v => advance (s.setGpr rD v)))

/-- `mtspr n,rS` (R161, R162, R222 to R224, R244, R246, R248 to R250). -/
def execMtspr (n : Nat) (rS : Reg) (s : State) : Result State :=
  unlessRaised (.mtspr n rS) s (andThen (writeSpr n (s.gpr rS) s) advance)

/-- `mftb rD,n` (R220, R226, R250). -/
def execMftb (rD : Reg) (n : Nat) (s : State) : Result State :=
  unlessRaised (.mftb rD n) s (andThen (readTb n s) (fun v => advance (s.setGpr rD v)))

end Sys2Proof.Machine
end

