-- ==== Sys2Proof/Machine/Supervisor.lean ====
section
/-! DEFINITION. mfmsr, mtmsr, sc, rfi (43_supervisor.md sections 1 and 3). -/

namespace Sys2Proof.Machine

/-- `mfmsr rD` (R240). -/
def execMfmsr (rD : Reg) (s : State) : Result State :=
  unlessRaised (.mfmsr rD) s (advance (s.setGpr rD s.readMsr))

/-- `mtmsr rS` (R241). -/
def execMtmsr (rS : Reg) (s : State) : Result State := unlessRaised (.mtmsr rS) s (advance (s.setMsr (s.gpr rS)))

/-- `sc` (R252): the system call exception. -/
def execSc (s : State) : Result State := .next (raise .systemCall s)

/-- `rfi` (R253). -/
def execRfi (s : State) : Result State := unlessRaised .rfi s (.next (returnFromException s))

end Sys2Proof.Machine
end

