-- ==== Sys2Proof/Machine/Dispatch.lean ====
section
/-! DEFINITION. The meaning of each instruction of the opcode table (R142), one arm a constructor. -/

namespace Sys2Proof.Machine

def exec (i : Instr) (s : State) : Host.Outcome State Fault Refusal :=
  match i with
  | .cmpli crfD rA uimm => Sys2Proof.Machine.execCmpli crfD rA uimm s
  | .cmpi crfD rA simm => Sys2Proof.Machine.execCmpi crfD rA simm s
  | .addicDot rD rA simm => Sys2Proof.Machine.execAddicDot rD rA simm s
  | .addi rD rA simm => Sys2Proof.Machine.execAddi rD rA simm s
  | .bc bo bi disp aa lk => Sys2Proof.Machine.execBc bo bi disp aa lk s
  | .sc => Sys2Proof.Machine.execSc s
  | .b disp aa lk => Sys2Proof.Machine.execB disp aa lk s
  | .mcrf crfD crfS => Sys2Proof.Machine.execMcrf crfD crfS s
  | .bclr bo bi lk => Sys2Proof.Machine.execBclr bo bi lk s
  | .crnor crbD crbA crbB => Sys2Proof.Machine.execCrnor crbD crbA crbB s
  | .rfi => Sys2Proof.Machine.execRfi s
  | .crandc crbD crbA crbB => Sys2Proof.Machine.execCrandc crbD crbA crbB s
  | .crxor crbD crbA crbB => Sys2Proof.Machine.execCrxor crbD crbA crbB s
  | .crnand crbD crbA crbB => Sys2Proof.Machine.execCrnand crbD crbA crbB s
  | .crand crbD crbA crbB => Sys2Proof.Machine.execCrand crbD crbA crbB s
  | .creqv crbD crbA crbB => Sys2Proof.Machine.execCreqv crbD crbA crbB s
  | .crorc crbD crbA crbB => Sys2Proof.Machine.execCrorc crbD crbA crbB s
  | .cror crbD crbA crbB => Sys2Proof.Machine.execCror crbD crbA crbB s
  | .bcctr bo bi lk => Sys2Proof.Machine.execBcctr bo bi lk s
  | .andiDot rA rS uimm => Sys2Proof.Machine.execAndiDot rA rS uimm s
  | .andisDot rA rS uimm => Sys2Proof.Machine.execAndisDot rA rS uimm s
  | .cmp crfD rA rB => Sys2Proof.Machine.execCmp crfD rA rB s
  | .subfc rD rA rB oe rc => Sys2Proof.Machine.execSubfc rD rA rB oe rc s
  | .mfcr rD => Sys2Proof.Machine.execMfcr rD s
  | .cmpl crfD rA rB => Sys2Proof.Machine.execCmpl crfD rA rB s
  | .mfmsr rD => Sys2Proof.Machine.execMfmsr rD s
  | .mtcrf crm rS => Sys2Proof.Machine.execMtcrf crm rS s
  | .mtmsr rS => Sys2Proof.Machine.execMtmsr rS s
  | .mfspr rD n => Sys2Proof.Machine.execMfspr rD n s
  | .mftb rD n => Sys2Proof.Machine.execMftb rD n s
  | .mtspr n rS => Sys2Proof.Machine.execMtspr n rS s
  | .mcrxr crfD => Sys2Proof.Machine.execMcrxr crfD s
  | .lwz rD rA d => Sys2Proof.Machine.execLwz rD rA d s
  | .mtfsb1 crbD rc => Sys2Proof.Machine.execMtfsb1 crbD rc s
  | .mcrfs crfD crfS => Sys2Proof.Machine.execMcrfs crfD crfS s
  | .mtfsb0 crbD rc => Sys2Proof.Machine.execMtfsb0 crbD rc s
  | .mtfsfi crfD imm rc => Sys2Proof.Machine.execMtfsfi crfD imm rc s
  | .mffs frD rc => Sys2Proof.Machine.execMffs frD rc s
  | .mtfsf fm frB rc => Sys2Proof.Machine.execMtfsf fm frB rc s

end Sys2Proof.Machine
end

