-- ==== Sys2Proof/Machine/Cycle.lean ====
section
/-! DEFINITION. What one step does: the core step of R300, and the steps of the other agents (R6). -/

namespace Sys2Proof.Machine

/-- The branch instructions, which MSR[BE] traces (R317). -/
def isBranch (i : Instr) : Bool :=
  match i with
  | .b _ _ _ => true
  | .bc _ _ _ _ _ => true
  | .bclr _ _ _ => true
  | .bcctr _ _ _ => true
  | _ => false

/-- Whether the trace exception follows `i`, executed in `s` and completed (R317): SE and BE as they were before, not after an
instruction that raised, and not after rfi (sc raises). -/
def traceApplies (i : Instr) (s : State) : Bool :=
  (syncException i s).isNone && i != .rfi && ((s.se && s.par.hasSingleStep) || (s.be && isBranch i))

/-- Steps 6 to 8 of R300: the instruction, then the trace exception where it applies. -/
def execTraced (i : Instr) (s : State) : Result State :=
  andThen (exec i s) (fun t => .next (if traceApplies i s then enter .trace t.pc t else t))

/-- The core's step (R300): external, then decrementer (R323), then the instruction at the pc. -/
def coreStep (s : State) : Result State :=
  if s.ee && s.extReq then .next (enter .external s.pc s)
  else if s.ee && s.decReq then .next (enter .decrementer s.pc s)
  else if s.le then .refused .littleEndianMode
  else andThen s.fetch (fun i => execTraced i s)

/-- One move of one agent (R6): the head of the schedule says whose; with no schedule left the core moves. DESIGN CHOICE, unsafe,
log 47: a schedule is finite, so in every run the ticks end, whereas TB_TICK and DEC_TICK are unconstrained (R4, R364) and that
they leave a loop alone is a fairness assumption, not a property of the machine (R227). A claim that a run ends, or comes to a
state, must not rest on it. -/
def cycle (s : State) : Result State :=
  match s.env with
  | [] => coreStep s
  | .core :: rest => coreStep { s with env := rest }
  | .tbTick :: rest => .next { s with env := rest }.tbTick
  | .decTick :: rest => .next { s with env := rest }.decTick
  | .extIrq level :: rest => .next { s with env := rest, extReq := level }
  | .reset :: rest => .next (assertReset { s with env := rest })

/-! ### Placing one instruction to run next -/

/-- `s` with no asynchronous exception able to come before the next instruction (R300 steps 1 and 2). -/
def State.quiet (s : State) : State := if s.ee then { s with extReq := false, decReq := false } else s

/-- `s` in big-endian mode (R300 step 3). -/
def State.bigEndianMode (s : State) : State := if s.le then { s with msr := putBit s.msr 31 false } else s

/-- `s` with the four bytes at the pc open to fetch (R111). -/
def State.withFetchMapped (s : State) : State :=
  if s.mappedAll .fetch s.pc 4 then s
  else { s with par := { s.par with memMap := ⟨0, 4294967296, false, false, true⟩ :: s.par.memMap } }

/-- `s` with the core to move next (R6). -/
def State.coreNext (s : State) : State :=
  match s.env with
  | [] => s
  | .core :: _ => s
  | _ => { s with env := .core :: s.env }

/-- `s` about to run the instruction whose bytes are `bytes`. -/
def State.placeInstruction (s : State) (bytes : List Byte) : State :=
  let t := s.quiet.bigEndianMode.withFetchMapped.coreNext
  { t with mem := Memory.writeBytes t.mem t.pc bytes }

end Sys2Proof.Machine
end

