-- ==== Sys2Proof/Machine/Step.lean ====
section
/-! DEFINITION. The step of the machine, and the placing of one instruction for it to run. -/

namespace Sys2Proof.Machine

/-- One step (R6, R300): see `cycle`. -/
def step (s : State) : Host.Outcome State Fault Refusal := cycle s

/-- `s` with the instruction whose bits are `w` stored where the next step fetches (log 45). -/
def State.withFetchWord (s : State) (nbits w : Nat) : State :=
  s.placeInstruction (bytesOfWord (BitVec.ofNat 32 (w % 2 ^ nbits)))

end Sys2Proof.Machine
end

