-- ==== Sys2Proof/Safety.lean ====
section
/-! DEFINITION. The vocabulary of the claims: the parts of the state and what leaves them alone, an exception entry as the spec
describes it, the flag rules bit by bit, and the invariant that every step keeps. -/

namespace Sys2Proof.Machine

open Sys2Proof.Config

/-! ### Frames -/

/-- A part of the state that a claim may say is unchanged: each register, each bit of CR, XER, FPSCR and MSR, each half of the
time base, each byte of memory, and the model's own fields. -/
inductive Part where
  | gpr (r : Reg)
  | fpr (r : Reg)
  | fpscrBit (i : BitNo)
  | crBit (i : BitNo)
  | xerBit (i : BitNo)
  | lr
  | ctr
  | tbu
  | tbl
  | msrBit (i : BitNo)
  | dsisr
  | dar
  | dec
  | srr0
  | srr1
  | sprg (k : Fin 4)
  | pvr
  | unspecified
  | pc
  | decReq
  | extReq
  | memByte (a : Nat)
  | par
  | env
  | draws
deriving DecidableEq, Repr

/-- Part `p` is the same in `s` and in `t`. -/
def Same (p : Part) (s t : State) : Prop :=
  match p with
  | .gpr r => t.gpr r = s.gpr r
  | .fpr r => t.fpr r = s.fpr r
  | .fpscrBit i => getBit t.fpscr i.val = getBit s.fpscr i.val
  | .crBit i => getBit t.cr i.val = getBit s.cr i.val
  | .xerBit i => getBit t.xer i.val = getBit s.xer i.val
  | .lr => t.lr = s.lr
  | .ctr => t.ctr = s.ctr
  | .tbu => t.tbu = s.tbu
  | .tbl => t.tbl = s.tbl
  | .msrBit i => getBit t.msr i.val = getBit s.msr i.val
  | .dsisr => t.dsisr = s.dsisr
  | .dar => t.dar = s.dar
  | .dec => t.dec = s.dec
  | .srr0 => t.srr0 = s.srr0
  | .srr1 => t.srr1 = s.srr1
  | .sprg k => t.sprg.get k = s.sprg.get k
  | .pvr => t.pvr = s.pvr
  | .unspecified => t.unspecified = s.unspecified
  | .pc => t.pc = s.pc
  | .decReq => t.decReq = s.decReq
  | .extReq => t.extReq = s.extReq
  | .memByte a => Memory.read t.mem a = Memory.read s.mem a
  | .par => t.par = s.par
  | .env => t.env = s.env
  | .draws => t.draws = s.draws

/-- From `s` to `t` nothing changes but the parts that `changed` names. -/
def OnlyChanges (changed : Part → Prop) (s t : State) : Prop := ∀ p, ¬ changed p → Same p s t

/-- The parts that are the bits of CR field `k` (R35). -/
def CrFieldPart (k : FieldNo) (p : Part) : Prop := ∃ i : BitNo, i.val / 4 = k.val ∧ p = .crBit i

/-- The address of the last word: an instruction there cannot fall through (R63). -/
abbrev lastWord : Word := 0xFFFFFFFC#32

/-! ### Exceptions -/

/-- From `s` to `t` exception `e` is taken with return address `a`, as R304 says it: SRR0 is `a`; SRR1[16:31] is MSR[16:31];
SRR1[0:15] may be anything (R305); the MSR keeps ILE, ME and IP, has LE equal to the old ILE, and all else 0; the pc is the
vector (R302); the decrementer's entry takes its request back (R311); nothing else changes but the count of free draws. -/
def EntersVia (e : Exc) (a : Word) (s t : State) : Prop :=
  t.srr0 = a ∧
  (∀ i : BitNo, 16 ≤ i.val → getBit t.srr1 i.val = getBit s.readMsr i.val) ∧
  (∀ i : BitNo, getBit t.msr i.val =
    (if i.val = 15 ∨ i.val = 19 ∨ i.val = 25 then getBit s.msr i.val
     else if i.val = 31 then getBit s.msr 15 else false)) ∧
  t.pc = (if getBit s.msr 25 then 0xFFF00000#32 else 0x00000000#32) + vectorOffset s.par.vec e ∧
  (e = .decrementer → t.decReq = false) ∧
  OnlyChanges (fun p => p = .srr0 ∨ p = .srr1 ∨ (∃ i, p = .msrBit i) ∨ p = .pc ∨ p = .draws ∨
    (e = .decrementer ∧ p = .decReq)) s t

/-- No asynchronous exception is taken at this boundary (R300 steps 1 and 2, R322). -/
abbrev NoInterrupt (s : State) : Prop := s.ee = false ∨ (s.extReq = false ∧ s.decReq = false)

/-! ### Flags, bit by bit -/

/-- CR0 records the result `r`: its sign, and the final XER[SO] (R37, R178). -/
def RecordsCr0 (r : Word) (t : State) : Prop :=
  getBit t.cr 0 = decide (r.toInt < 0) ∧ getBit t.cr 1 = decide (0 < r.toInt) ∧ getBit t.cr 2 = decide (r.toInt = 0) ∧
  getBit t.cr 3 = getBit t.xer 0

/-- CR1 is FPSCR[0:3] as the instruction leaves it (R38, R212). -/
def RecordsCr1 (t : State) : Prop := ∀ j : Fin 4, getBit t.cr (4 + j.val) = getBit t.fpscr j.val

/-- CR field `k` holds a comparison: less, greater, equal, and the final XER[SO] (R39, R179). -/
def RecordsOrder (k : FieldNo) (lt gt eq : Prop) (t : State) : Prop :=
  (getBit t.cr (4 * k.val) = true ↔ lt) ∧ (getBit t.cr (4 * k.val + 1) = true ↔ gt) ∧
  (getBit t.cr (4 * k.val + 2) = true ↔ eq) ∧ getBit t.cr (4 * k.val + 3) = getBit t.xer 0

/-- The exception bits of the FPSCR: 3 to 12 and 21 to 23 (R26). -/
abbrev ExceptionBit (i : Nat) : Prop := (3 ≤ i ∧ i ≤ 12) ∨ (21 ≤ i ∧ i ≤ 23)

/-- VX is the logical OR of the invalid operation bits (R29). -/
def VxIsOr (f : Word) : Prop :=
  getBit f 2 = (getBit f 7 || getBit f 8 || getBit f 9 || getBit f 10 || getBit f 11 || getBit f 12 || getBit f 21 ||
    getBit f 22 || getBit f 23)

/-- FEX is the logical OR of the exception bits masked with their enables (R28). -/
def FexIsOr (f : Word) : Prop :=
  getBit f 1 = ((getBit f 2 && getBit f 24) || (getBit f 3 && getBit f 25) || (getBit f 4 && getBit f 26) ||
    (getBit f 5 && getBit f 27) || (getBit f 6 && getBit f 28))

/-- `f` is the FPSCR whose bits are written as `g` says, where the two summary bits are the ORs and bit 20 is 0 whatever `g`
says of them (R20, R201). -/
def SettlesTo (g : Nat → Bool) (f : Word) : Prop :=
  (∀ i : BitNo, i.val ≠ 1 → i.val ≠ 2 → i.val ≠ 20 → getBit f i.val = g i.val) ∧
  getBit f 20 = false ∧ VxIsOr f ∧ FexIsOr f

/-- FEX of an FPSCR whose bits are `g`: the OR of the exception bits masked with their enables (R28, R29). -/
def fexOfBits (g : Nat → Bool) : Bool :=
  ((g 7 || g 8 || g 9 || g 10 || g 11 || g 12 || g 21 || g 22 || g 23) && g 24) || (g 3 && g 25) || (g 4 && g 26) ||
    (g 5 && g 27) || (g 6 && g 28)

/-- An FPSCR move that writes the bits `g` is carried out: it leaves FEX & (FE0 | FE1) = 0 (R210). -/
def MayMove (g : Nat → Bool) (s : State) : Prop :=
  fexOfBits g = false ∨ (getBit s.msr 20 = false ∧ getBit s.msr 23 = false)

/-- The FPSCR bits that mcrfs writes: FX and the exception bits of the copied field cleared (R202). -/
def mcrfsBits (crfS : FieldNo) (s : State) (i : Nat) : Bool :=
  if i / 4 = crfS.val ∧ (i = 0 ∨ ExceptionBit i) then false else getBit s.fpscr i

/-- The FPSCR bits that mtfsf writes: the fields of FM, from bits 32 to 63 of the FPR (R204). -/
def mtfsfBits (fm : BitVec 8) (frB : Reg) (s : State) (i : Nat) : Bool :=
  if fm.getMsbD (i / 4) = true then (s.fpr frB).getMsbD (32 + i) else getBit s.fpscr i

/-- The FPSCR bits that mtfsfi writes: the field crfD, from IMM (R205). -/
def mtfsfiBits (crfD : FieldNo) (imm : BitVec 4) (s : State) (i : Nat) : Bool :=
  if i / 4 = crfD.val then imm.getMsbD (i % 4) else getBit s.fpscr i

/-- The FPSCR bits that mtfsb0 writes (R206). -/
def mtfsb0Bits (crbD : BitNo) (s : State) (i : Nat) : Bool := if i = crbD.val then false else getBit s.fpscr i

/-- The FPSCR bits that mtfsb1 writes: the bit, and FX where an exception bit rises (R207). -/
def mtfsb1Bits (crbD : BitNo) (s : State) (i : Nat) : Bool :=
  if i = crbD.val then true
  else if i = 0 then getBit s.fpscr 0 || (decide (ExceptionBit crbD.val) && !getBit s.fpscr crbD.val)
  else getBit s.fpscr i

/-- An exception bit of the FPSCR goes from 0 to 1 (R203). -/
def ExceptionRises (s t : State) : Prop :=
  ∃ i : BitNo, ExceptionBit i.val ∧ getBit s.fpscr i.val = false ∧ getBit t.fpscr i.val = true

/-- FX after a move that does not write it explicitly (R203): unchanged without a rise; never cleared; on a rise set under
`literal`, unchanged under `architecture`, and anything under `any`. -/
def ImplicitFx (s t : State) : Prop :=
  (¬ ExceptionRises s t → getBit t.fpscr 0 = getBit s.fpscr 0) ∧
  (getBit s.fpscr 0 = true → getBit t.fpscr 0 = true) ∧
  (ExceptionRises s t → s.par.fxOnMtfsf = .literal → getBit t.fpscr 0 = true) ∧
  (s.par.fxOnMtfsf = .architecture → getBit t.fpscr 0 = getBit s.fpscr 0)

/-! ### Branches -/

/-- The CTR that a branch with option field `bo` leaves, and tests (R269). -/
def ctrAfter (bo : BitVec 5) (s : State) : Word := if bo.getMsbD 2 = true then s.ctr else s.ctr - 1#32

/-- The branch condition of R269: the CTR part and the CR part. -/
def BranchCondition (bo : BitVec 5) (bi : BitNo) (s : State) : Prop :=
  (bo.getMsbD 2 = true ∨ (ctrAfter bo s = 0#32 ↔ bo.getMsbD 3 = true)) ∧
  (bo.getMsbD 0 = true ∨ getBit s.cr bi.val = bo.getMsbD 1)

/-- The address of a branch target: `base + disp` modulo 2^32 (R270, R271). -/
def IsTarget (base : Nat) (disp : Int) (pc : Word) : Prop := (pc.toNat : Int) = ((base : Int) + disp) % 4294967296

/-! ### Memory and the step -/

/-- The `n` bytes from `a` on are in MEM_MAP for an access that `may` tells of; addresses are modulo 2^32 (R111). -/
def Accessible (may : Region → Bool) (a : Word) (n : Nat) (s : State) : Prop :=
  ∀ j, j < n → ∃ r ∈ s.par.memMap,
    r.first ≤ (a.toNat + j) % 4294967296 ∧ (a.toNat + j) % 4294967296 < r.limit ∧ may r = true

/-- The word whose bytes stand at `a`, the most significant at the lowest address (R102, R111). -/
def wordAt (a : Word) (s : State) : Word :=
  wordOfBytes (Memory.read s.mem a.toNat) (Memory.read s.mem (a + 1#32).toNat) (Memory.read s.mem (a + 2#32).toNat)
    (Memory.read s.mem (a + 3#32).toNat)

/-- The core moves next: `c` is `s` with that move taken off the schedule (R6). -/
def CoreMoves (s c : State) : Prop := (s.env = [] ∧ c = s) ∨ ∃ rest, s.env = .core :: rest ∧ c = { s with env := rest }

/-- The core is about to execute `i`: no asynchronous exception is taken, the mode is big-endian, and the word at the pc may be
fetched and is `i` (R300 steps 1 to 5). -/
def AboutToExecute (i : Instr) (c : State) : Prop :=
  NoInterrupt c ∧ getBit c.msr 31 = false ∧ Accessible Region.mayFetch c.pc 4 c ∧ decode (wordAt c.pc c) = some i

/-- A trace exception follows `i` when it has completed in `s` (R317): single step, or branch trace and a branch; not where it
raised, and not after rfi. -/
def Traced (i : Instr) (s : State) : Prop :=
  syncException i s = none ∧ i ≠ .rfi ∧
    ((getBit s.msr 21 = true ∧ s.par.hasSingleStep = true) ∨
     (getBit s.msr 22 = true ∧
       ((∃ disp aa lk, i = .b disp aa lk) ∨ (∃ bo bi disp aa lk, i = .bc bo bi disp aa lk) ∨
        (∃ bo bi lk, i = .bclr bo bi lk) ∨ (∃ bo bi lk, i = .bcctr bo bi lk))))

/-! ### Who writes what -/

/-- `i` is one of the ways that R36 lists in which bit `b` of the CR is written: a move to the field or the bit, a CR logical
instruction on the bit, CR0 by an integer instruction that records, CR1 by a floating-point instruction with Rc = 1, the field
of a compare. -/
def WritesCrBit (i : Instr) (b : Nat) : Prop :=
  match i with
  | .mtcrf crm _ => crm.getMsbD (b / 4) = true
  | .mcrf crfD _ => b / 4 = crfD.val
  | .mcrfs crfD _ => b / 4 = crfD.val
  | .mcrxr crfD => b / 4 = crfD.val
  | .crand d _ _ => b = d.val
  | .cror d _ _ => b = d.val
  | .crxor d _ _ => b = d.val
  | .crnand d _ _ => b = d.val
  | .crnor d _ _ => b = d.val
  | .creqv d _ _ => b = d.val
  | .crandc d _ _ => b = d.val
  | .crorc d _ _ => b = d.val
  | .addicDot _ _ _ => b / 4 = 0
  | .andiDot _ _ _ => b / 4 = 0
  | .andisDot _ _ _ => b / 4 = 0
  | .subfc _ _ _ _ rc => rc = true ∧ b / 4 = 0
  | .mtfsf _ _ rc => rc = true ∧ b / 4 = 1
  | .mtfsfi _ _ rc => rc = true ∧ b / 4 = 1
  | .mtfsb0 _ rc => rc = true ∧ b / 4 = 1
  | .mtfsb1 _ rc => rc = true ∧ b / 4 = 1
  | .mffs _ rc => rc = true ∧ b / 4 = 1
  | .cmp crfD _ _ => b / 4 = crfD.val
  | .cmpi crfD _ _ => b / 4 = crfD.val
  | .cmpl crfD _ _ => b / 4 = crfD.val
  | .cmpli crfD _ _ => b / 4 = crfD.val
  | _ => False

/-- `i` is one of the instructions that clear the sticky bit `b` of the FPSCR (R26): mcrfs, mtfsfi, mtfsf or mtfsb0, on the
field or the bit. -/
def ClearsFpscrBit (i : Instr) (b : Nat) : Prop :=
  match i with
  | .mcrfs _ crfS => b / 4 = crfS.val
  | .mtfsfi crfD _ _ => b / 4 = crfD.val
  | .mtfsf fm _ _ => fm.getMsbD (b / 4) = true
  | .mtfsb0 crbD _ => b = crbD.val
  | _ => False

/-- The ways software writes the XER as a whole: mtspr to SPR 1, and mcrxr (R41). -/
def SoftwareWritesXer (i : Instr) : Prop := (∃ rS, i = .mtspr 1 rS) ∨ ∃ crfD, i = .mcrxr crfD

/-! ### The invariant -/

/-- The parameters a machine can have: RESET_PC and every vector are word-aligned (R4, R302). -/
structure ParamsAligned (p : Params) : Prop where
  resetPc : p.resetPc.toNat % 4 = 0
  vectors : ∀ e, (vectorOffset p.vec e).toNat % 4 = 0

/-- What holds at reset and after every step. -/
structure Inv (s : State) : Prop where
  /-- Memory has its canonical form. -/
  memory : Memory.wf s.mem = true
  /-- The pc is word-aligned (R63). -/
  pcAligned : s.pc.toNat % 4 = 0
  /-- The reserved bits of the MSR are 0 (R20, R49). -/
  msrReserved : ∀ i : BitNo, getBit msrMask i.val = false → getBit s.msr i.val = false
  /-- The reserved bits of the XER are 0 (R20, R40). -/
  xerReserved : ∀ i : BitNo, getBit xerMask i.val = false → getBit s.xer i.val = false
  /-- The reserved bit of the FPSCR is 0 (R20, R25). -/
  fpscrReserved : getBit s.fpscr 20 = false
  /-- VX is the OR of its bits (R29). -/
  vx : VxIsOr s.fpscr
  /-- FEX is the OR of the enabled exceptions (R28). -/
  fex : FexIsOr s.fpscr
  /-- The parameters are those of a machine. -/
  params : ParamsAligned s.par

/-! ### Levels -/

/-- The parts that a user-level program may change without an exception (R320). -/
def UserPart (p : Part) : Prop :=
  (∃ r, p = .gpr r) ∨ (∃ r, p = .fpr r) ∨ (∃ i, p = .fpscrBit i) ∨ (∃ i, p = .crBit i) ∨ (∃ i, p = .xerBit i) ∨
  p = .lr ∨ p = .ctr ∨ p = .pc ∨ p = .draws

/-- The registers that only the supervisor level reads (R320): a user-level program must not see them. -/
def SupervisorPart (p : Part) : Prop :=
  p = .dsisr ∨ p = .dar ∨ p = .dec ∨ p = .srr0 ∨ p = .srr1 ∨ (∃ k, p = .sprg k) ∨ p = .pvr ∨ p = .unspecified ∨
  p = .decReq ∨ p = .extReq

end Sys2Proof.Machine
end

