-- ==== Sys2Proof/Certificates/Slice0/Obligations.lean ====
section
/-! DEFINITION. The statements for the provers. They speak of the machine, through the vocabulary of Sys2Proof/Safety.lean. -/

open Sys2Proof Sys2Proof.Config Sys2Proof.Machine

/-- For every well-formed instruction of the whole table, with every operand at every value the encoding admits, the
decoder reads the encoder's word as that instruction. The encodings are general knowledge by the spec's own word (GK7 to
GK10, log 28). (30_encoding.md sections 1 to 4 (R130 to R142)) -/
def Obligations.DecodeInvertsEncode : Prop :=
  ∀ i : Instr, i.wellFormed = true → decode (encode i) = some i

/-- Every word the decoder accepts is the encoding of the instruction it reads, bit for bit, and that instruction is
well-formed: no two words decode to one instruction, and no reserved bit is dropped (R143). (30_encoding.md sections 1
to 5 (R130 to R143)) -/
def Obligations.EncodeInvertsDecode : Prop :=
  ∀ (w : Word) (i : Instr), decode w = some i → i.wellFormed = true ∧ encode i = w

/-- For every word and every one of the 39 rows of R142: the word agrees with the row's match under its mask if and only
if the decoder reads an instruction of that row. So no two rows overlap, and a word that matches no row is rejected.
(30_encoding.md section 4 (R142), 30_encoding.md section 5 (R143, R144)) -/
def Obligations.DecodeMatchesOpcodeMap : Prop :=
  ∀ (w : Word) (row : OpcodeRow), row ∈ opcodeMap →
    (w &&& row.mask = row.matchBits ↔ ∃ i, decode w = some i ∧ rowOf i = row)

/-- The bytes of a well-formed instruction are four, their big-endian value is its word, and the byte decoder reads the
instruction from them and leaves the bytes after them. (30_encoding.md section 1 (R130), 30_encoding.md section 5
(R145), 20_memory.md section 2 (R102, R111)) -/
def Obligations.EncodedBytesDecode : Prop :=
  ∀ (i : Instr) (rest : List Byte), i.wellFormed = true →
    (encodeBytes i).length = 4 ∧ bigEndian (encodeBytes i) = (encode i).toNat ∧
      decodeBytes (encodeBytes i ++ rest) = .ok (i, rest)

/-- Eleven words that the spec prints, one or more for each family of the opcode table, decode to their instructions.
(30_encoding.md section 4 (R142), 95_test_vectors.md part 2) -/
def Obligations.SampleWordsDecode : Prop :=
  decode 0x7C6802A6#32 = some (.mfspr 3 8) ∧ decode 0x7C1013A6#32 = some (.mtspr 80 0) ∧
  decode 0x7C6C42E6#32 = some (.mftb 3 268) ∧ decode 0x7C681120#32 = some (.mtcrf 0x81#8 3) ∧
  decode 0x4C011202#32 = some (.crand 0 1 2) ∧ decode 0xFDFE0D8E#32 = some (.mtfsf 0xFF#8 1 false) ∧
  decode 0x44000002#32 = some .sc ∧ decode 0x4082FFF4#32 = some (.bc 4#5 2 (-12) false false) ∧
  decode 0x7C843000#32 = some (.cmp 1 4 6) ∧ decode 0x7C642C11#32 = some (.subfc 3 4 5 true true) ∧
  decode 0x80640008#32 = some (.lwz 3 4 8)

/-- When the core moves next, no asynchronous exception is taken, the mode is big-endian and the word at the pc may be
fetched and decodes to i, then i is well-formed and the step is exec of i, followed by the trace exception's entry where
it applies. (60_exceptions.md section 1 (R300), 00_scope.md section 3 (R6)) -/
def Obligations.StepRunsDecodedInstruction : Prop :=
  ∀ (s c : State) (i : Instr), CoreMoves s c → AboutToExecute i c →
    i.wellFormed = true ∧
    step s = andThen (exec i c) (fun t => .next (if traceApplies i c then enter .trace t.pc t else t)) ∧
    (traceApplies i c = true ↔ Traced i c)

/-- The model's own loading function (log 45): in a state whose memory has its canonical form, if the word w decodes to
i, the next step after placing it is a move of the core that executes i at the same pc, and nothing has changed but the
four bytes at the pc, the request lines, MSR[LE], the parameters and the schedule. (60_exceptions.md section 1 (R300),
log 45) -/
def Obligations.PlacedWordRunsNext : Prop :=
  ∀ (s : State) (nbits w : Nat) (i : Instr), Memory.wf s.mem = true →
    decode (BitVec.ofNat 32 (w % 2 ^ nbits)) = some i →
    ∃ c, CoreMoves (s.withFetchWord nbits w) c ∧ AboutToExecute i c ∧ step (s.withFetchWord nbits w) = execTraced i c ∧
      OnlyChanges (fun p => (∃ j, j < 4 ∧ p = .memByte ((s.pc.toNat + j) % 4294967296)) ∨ p = .extReq ∨ p = .decReq ∨
        p = .msrBit 31 ∨ p = .par ∨ p = .env) s c

/-- When the core moves with MSR[EE] = 1: an asserted external request is taken with SRR0 the pc, leaving the request
line and a decrementer request as they are; with no external request a decrementer request is taken with SRR0 the pc,
which clears it. In both no instruction is executed. That the external request goes first, and that a request is
recognised at the first boundary with EE = 1, is decision D19 and general knowledge (GK37), not the source's: the source
gives no order (R323); PRESUMED, log 35. (60_exceptions.md section 1 (R300), 60_exceptions.md section 5 (R311, R312),
60_exceptions.md section 6 (R323), log 35) -/
def Obligations.PendingRequestsAreTaken : Prop :=
  ∀ s c : State, CoreMoves s c → getBit c.msr 16 = true →
    (c.extReq = true → ∃ t, step s = .next t ∧ EntersVia .external c.pc c t ∧ t.decReq = c.decReq ∧ t.extReq = true) ∧
    (c.extReq = false → c.decReq = true → ∃ t, step s = .next t ∧ EntersVia .decrementer c.pc c t ∧ t.decReq = false)

/-- When the core moves and takes no asynchronous exception: with MSR[LE] = 1 the step is refused by name; else with the
pc's bytes outside MEM_MAP for fetch it is refused by name; else with a word that matches no row it is refused by name.
These refusals are choices, since the source gives none of the three a meaning: little-endian mode is decision D5 (R103,
log 21), the unmapped access D3 (R111, log 14), the unlisted word R144 (log 27). (20_memory.md section 2 (R103, R111),
30_encoding.md section 5 (R144), 60_exceptions.md section 1 (R300), log 14, log 21, log 27) -/
def Obligations.StepStops : Prop :=
  ∀ s c : State, CoreMoves s c → NoInterrupt c →
    (getBit c.msr 31 = true → step s = .refused .littleEndianMode) ∧
    (getBit c.msr 31 = false → ¬ Accessible Region.mayFetch c.pc 4 c → step s = .refused .unmappedAccess) ∧
    (getBit c.msr 31 = false → Accessible Region.mayFetch c.pc 4 c → decode (wordAt c.pc c) = none →
      step s = .refused .instructionNotInSpec)

/-- When the core is about to execute i and exec of i answers t: if MSR[SE] as sampled before is 1 and the parameter
HAS_SINGLE_STEP is true, or MSR[BE] as sampled before is 1 and i is a branch, and i neither raised nor is rfi, the step
enters the trace exception from t with SRR0 the address that i left; in every other case the step answers t. The
parameter (decision D17), the sampling and that rfi is not traced (GK36) are choices: DESIGN CHOICE, log 34.
(60_exceptions.md section 5 (R317), 60_exceptions.md section 3 (R306), 00_scope.md section 2 (R4), log 34) -/
def Obligations.TraceFollowsCompletion : Prop :=
  ∀ (s c t : State) (i : Instr), CoreMoves s c → AboutToExecute i c → exec i c = .next t →
    (Traced i c → ∃ u, step s = .next u ∧ EntersVia .trace t.pc t u) ∧ (¬ Traced i c → step s = .next t)

/-- A time-base tick adds one modulo 2^64 (the wrap is the spec's inference); a decrementer tick subtracts one modulo
2^32 and signals a request exactly when the DEC was 0; a change of the external line sets its level. Nothing else
changes. (10_state.md section 3 (R47), 10_state.md section 4 (R54), 60_exceptions.md section 5 (R312)) -/
def Obligations.OtherAgentsMove : Prop :=
  (∀ (s : State) (rest : List EnvStep), s.env = .tbTick :: rest → ∃ t, step s = .next t ∧
    t.tb.toNat = (s.tb.toNat + 1) % 18446744073709551616 ∧ t.env = rest ∧
    OnlyChanges (fun p => p = .tbu ∨ p = .tbl ∨ p = .env) s t) ∧
  (∀ (s : State) (rest : List EnvStep), s.env = .decTick :: rest → ∃ t, step s = .next t ∧
    (t.dec.toNat : Int) = ((s.dec.toNat : Int) - 1) % 4294967296 ∧
    (t.decReq = true ↔ s.decReq = true ∨ s.dec.toNat = 0) ∧ t.env = rest ∧
    OnlyChanges (fun p => p = .dec ∨ p = .decReq ∨ p = .env) s t) ∧
  (∀ (s : State) (level : Bool) (rest : List EnvStep), s.env = .extIrq level :: rest → ∃ t, step s = .next t ∧
    t.extReq = level ∧ t.env = rest ∧ OnlyChanges (fun p => p = .extReq ∨ p = .env) s t)

/-- After a reset step MSR[ME] and MSR[IP] are the parameters and every other MSR bit is 0, the pc is RESET_PC, SRR0,
SRR1 and the pending decrementer request may be anything, and every register with RESET: UNCHANGED is unchanged. That
reset may be asserted during a run at all is left to the modeller by R350, and that the external request line, the
environment's, stays as it was is the model's: DESIGN CHOICE, log 44. RESET_PC is a parameter (D23).
(70_reset_and_hazards.md section 1 (R350, R351, R353), 10_state.md section 9 (R75), log 44) -/
def Obligations.ResetDuringRun : Prop :=
  ∀ (s : State) (rest : List EnvStep), s.env = .reset :: rest → ∃ t, step s = .next t ∧
    (∀ i : BitNo, getBit t.msr i.val =
      (if i.val = 19 then s.par.resetMe else if i.val = 25 then s.par.resetIp else false)) ∧
    t.pc = s.par.resetPc ∧ t.env = rest ∧
    OnlyChanges (fun p => (∃ i, p = .msrBit i) ∨ p = .srr0 ∨ p = .srr1 ∨ p = .decReq ∨ p = .pc ∨ p = .env ∨ p = .draws) s t

/-- For every exception, return address and state, entry is as R304 describes it, and with the default table the
handler's offset is the one R302 prints, for each of its fifteen exceptions: 0x600, 0x900 and 0xE00 from the source, the
others the spec's general knowledge (GK26, log 29). The MSR bits that entry clears besides PR are decision D20 (log 30).
(60_exceptions.md section 2 (R302), 60_exceptions.md section 3 (R304, R305), log 29, log 30) -/
def Obligations.EntryTakesException : Prop :=
  (∀ (e : Exc) (a : Word) (s : State), EntersVia e a s (enter e a s)) ∧
  vectorOffset defaultVectors .alignment = 0x00600#32 ∧ vectorOffset defaultVectors .decrementer = 0x00900#32 ∧
  vectorOffset defaultVectors .fpAssist = 0x00E00#32 ∧ vectorOffset defaultVectors .systemReset = 0x00100#32 ∧
  vectorOffset defaultVectors .machineCheck = 0x00200#32 ∧ vectorOffset defaultVectors .external = 0x00500#32 ∧
  vectorOffset defaultVectors .program = 0x00700#32 ∧ vectorOffset defaultVectors .fpUnavailable = 0x00800#32 ∧
  vectorOffset defaultVectors .systemCall = 0x00C00#32 ∧ vectorOffset defaultVectors .trace = 0x00D00#32 ∧
  vectorOffset defaultVectors .softwareEmulation = 0x01000#32 ∧
  vectorOffset defaultVectors .dataBreakpoint = 0x01C00#32 ∧
  vectorOffset defaultVectors .instructionBreakpoint = 0x01D00#32 ∧
  vectorOffset defaultVectors .maskableExternalBreakpoint = 0x01E00#32 ∧
  vectorOffset defaultVectors .nonMaskableExternalBreakpoint = 0x01F00#32

/-- In every state sc answers a next state that is the entry of the system call exception with SRR0 = pc + 4. This is
sc's own effect. (43_supervisor.md section 3 (R252), 60_exceptions.md section 3 (R304, R306)) -/
def Obligations.ScTakesSystemCall : Prop :=
  ∀ s : State, ∃ t, exec .sc s = .next t ∧ EntersVia .systemCall (s.pc + 4#32) s t

/-- At supervisor level rfi answers a next state: each defined bit of MSR[16:31] is SRR1's, reserved bits are 0,
MSR[ILE] is unchanged, the pc is SRR0[0:29] followed by 00, and nothing but the MSR and the pc changes.
(43_supervisor.md section 3 (R253), 60_exceptions.md section 4 (R308)) -/
def Obligations.RfiRestoresContext : Prop :=
  ∀ s : State, getBit s.msr 17 = false → ∃ t, exec .rfi s = .next t ∧
    (∀ i : BitNo, getBit t.msr i.val =
      (if i.val < 16 then decide (i.val = 15) && getBit s.msr 15
       else if i.val = 24 ∨ (26 ≤ i.val ∧ i.val ≤ 29) then false else getBit s.srr1 i.val)) ∧
    (∀ i : BitNo, getBit t.pc i.val = (decide (i.val < 30) && getBit s.srr0 i.val)) ∧
    OnlyChanges (fun p => (∃ i, p = .msrBit i) ∨ p = .pc) s t

/-- With MSR[PR] = 1, mfmsr, mtmsr, rfi, and mfspr, mtspr and mftb whose SPR number has the bit of weight 16 set answer
the entry of the program exception with SRR0 the instruction's own address: no register they name is written. That it is
this exception is the spec's general knowledge (GK14, log 31). (60_exceptions.md section 5 (R315), 60_exceptions.md
section 7 (R320), 40_cr_xer_lr_ctr.md section 1 (R162), log 31) -/
def Obligations.PrivilegedAtUserLevel : Prop :=
  ∀ (s : State) (r : Reg) (n : Nat), getBit s.msr 17 = true →
    (∃ t, exec (.mfmsr r) s = .next t ∧ EntersVia .program s.pc s t) ∧
    (∃ t, exec (.mtmsr r) s = .next t ∧ EntersVia .program s.pc s t) ∧
    (∃ t, exec .rfi s = .next t ∧ EntersVia .program s.pc s t) ∧
    (n / 16 % 2 = 1 →
      (∃ t, exec (.mfspr r n) s = .next t ∧ EntersVia .program s.pc s t) ∧
      (∃ t, exec (.mtspr n r) s = .next t ∧ EntersVia .program s.pc s t) ∧
      (∃ t, exec (.mftb r n) s = .next t ∧ EntersVia .program s.pc s t))

/-- At supervisor level a read of SPR 80, 81 or 82 answers the entry of the software emulation exception with SRR0 the
instruction's own address; the destination register is not written. (43_supervisor.md section 2 (R247), 60_exceptions.md
section 5 (R314)) -/
def Obligations.EmulatedReadsTrap : Prop :=
  ∀ (s : State) (rD : Reg) (n : Nat), getBit s.msr 17 = false → n = 80 ∨ n = 81 ∨ n = 82 →
    ∃ t, exec (.mfspr rD n) s = .next t ∧ EntersVia .softwareEmulation s.pc s t ∧ t.gpr rD = s.gpr rD

/-- With MSR[FP] = 0 each of mcrfs, mtfsf, mtfsfi, mtfsb0, mtfsb1 and mffs answers the entry of the floating-point
unavailable exception with SRR0 its own address, before any other effect. That it is this exception is the spec's
general knowledge (GK21, log 32). (41_fpscr.md section 1 (R200), 60_exceptions.md section 5 (R316), log 32) -/
def Obligations.FpUnavailableTaken : Prop :=
  ∀ (s : State) (k q : FieldNo) (d : BitNo) (r : Reg) (fm : BitVec 8) (imm : BitVec 4) (rc : Bool),
    getBit s.msr 18 = false →
    ∀ i ∈ [Instr.mcrfs k q, .mtfsf fm r rc, .mtfsfi k imm rc, .mtfsb0 d rc, .mtfsb1 d rc, .mffs r rc],
      ∃ t, exec i s = .next t ∧ EntersVia .fpUnavailable s.pc s t

/-- For XER, LR and CTR at either level, and for DSISR, DAR, DEC, SRR0, SRR1, SPRG0 to SPRG3 and PVR at supervisor
level, mfspr answers a next state in which rD is the register (XER with its reserved bits 0), the pc is the next
instruction's, and nothing else changes. (40_cr_xer_lr_ctr.md section 1 (R160), 43_supervisor.md section 2 (R243),
42_timebase_dec.md (R225)) -/
def Obligations.MfsprReadsRegister : Prop :=
  ∀ (s : State) (rD : Reg) (n : Nat), s.pc ≠ lastWord →
    (n = 1 ∨ n = 8 ∨ n = 9 ∨
      (getBit s.msr 17 = false ∧
        (n = 18 ∨ n = 19 ∨ n = 22 ∨ n = 26 ∨ n = 27 ∨ (∃ k : Fin 4, n = 272 + k.val) ∨ n = 287))) →
    ∃ t, exec (.mfspr rD n) s = .next t ∧
      (n = 1 → ∀ i : BitNo, getBit (t.gpr rD) i.val =
        (if (3 ≤ i.val ∧ i.val ≤ 15) ∨ i.val = 24 then false else getBit s.xer i.val)) ∧
      (n = 8 → t.gpr rD = s.lr) ∧ (n = 9 → t.gpr rD = s.ctr) ∧ (n = 18 → t.gpr rD = s.dsisr) ∧
      (n = 19 → t.gpr rD = s.dar) ∧ (n = 22 → t.gpr rD = s.dec) ∧ (n = 26 → t.gpr rD = s.srr0) ∧
      (n = 27 → t.gpr rD = s.srr1) ∧ (∀ k : Fin 4, n = 272 + k.val → t.gpr rD = s.sprg.get k) ∧
      (n = 287 → t.gpr rD = s.pvr) ∧
      t.pc = s.pc + 4#32 ∧ OnlyChanges (fun p => p = .gpr rD ∨ p = .pc) s t

/-- At either level mtspr to SPR 1 leaves each bit of the XER equal to rS's but for bits 3:15 and 24, which are 0, and
to SPR 8 and 9 stores all 32 bits in LR and CTR; at supervisor level it stores all 32 bits in DSISR (18), DAR (19), SRR0
(26), SRR1 (27) and SPRG0 to SPRG3 (272 to 275). The pc advances and nothing else changes. (40_cr_xer_lr_ctr.md section
1 (R161), 10_state.md section 2.3 (R40), 43_supervisor.md section 2 (R244)) -/
def Obligations.MtsprStoresRegister : Prop :=
  ∀ (s : State) (rS : Reg), s.pc ≠ lastWord →
    (∃ t, exec (.mtspr 1 rS) s = .next t ∧
      (∀ i : BitNo, getBit t.xer i.val =
        (if (3 ≤ i.val ∧ i.val ≤ 15) ∨ i.val = 24 then false else getBit (s.gpr rS) i.val)) ∧
      t.pc = s.pc + 4#32 ∧ OnlyChanges (fun p => (∃ i, p = .xerBit i) ∨ p = .pc) s t) ∧
    (∃ t, exec (.mtspr 8 rS) s = .next t ∧ t.lr = s.gpr rS ∧ t.pc = s.pc + 4#32 ∧
      OnlyChanges (fun p => p = .lr ∨ p = .pc) s t) ∧
    (∃ t, exec (.mtspr 9 rS) s = .next t ∧ t.ctr = s.gpr rS ∧ t.pc = s.pc + 4#32 ∧
      OnlyChanges (fun p => p = .ctr ∨ p = .pc) s t) ∧
    (getBit s.msr 17 = false →
      (∃ t, exec (.mtspr 18 rS) s = .next t ∧ t.dsisr = s.gpr rS ∧ t.pc = s.pc + 4#32 ∧
        OnlyChanges (fun p => p = .dsisr ∨ p = .pc) s t) ∧
      (∃ t, exec (.mtspr 19 rS) s = .next t ∧ t.dar = s.gpr rS ∧ t.pc = s.pc + 4#32 ∧
        OnlyChanges (fun p => p = .dar ∨ p = .pc) s t) ∧
      (∃ t, exec (.mtspr 26 rS) s = .next t ∧ t.srr0 = s.gpr rS ∧ t.pc = s.pc + 4#32 ∧
        OnlyChanges (fun p => p = .srr0 ∨ p = .pc) s t) ∧
      (∃ t, exec (.mtspr 27 rS) s = .next t ∧ t.srr1 = s.gpr rS ∧ t.pc = s.pc + 4#32 ∧
        OnlyChanges (fun p => p = .srr1 ∨ p = .pc) s t) ∧
      (∀ k : Fin 4, ∃ t, exec (.mtspr (272 + k.val) rS) s = .next t ∧ t.sprg.get k = s.gpr rS ∧
        t.pc = s.pc + 4#32 ∧ OnlyChanges (fun p => p = .sprg k ∨ p = .pc) s t))

/-- At supervisor level mtspr to SPR 22 stores rS in the DEC; dec_req becomes 1 when the old bit 0 was 0 and the new one
is 1, and is otherwise as it was, a pending request included. The pc advances and nothing else changes.
(42_timebase_dec.md (R224)) -/
def Obligations.MtdecSignalsRequest : Prop :=
  ∀ (s : State) (rS : Reg), s.pc ≠ lastWord → getBit s.msr 17 = false →
    ∃ t, exec (.mtspr 22 rS) s = .next t ∧ t.dec = s.gpr rS ∧
      (t.decReq = true ↔ s.decReq = true ∨ (s.dec.toNat < 2147483648 ∧ 2147483648 ≤ (s.gpr rS).toNat)) ∧
      t.pc = s.pc + 4#32 ∧ OnlyChanges (fun p => p = .dec ∨ p = .decReq ∨ p = .pc) s t

/-- mftb with 268 copies TB[32:63] and with 269 TB[0:31] to rD, at either level. At supervisor level mtspr to SPR 284
makes TB[32:63] equal to rS and leaves TB[0:31]; to SPR 285 the reverse. The pc advances and nothing else changes.
(42_timebase_dec.md (R220, R222, R223), 10_state.md section 3 (R48)) -/
def Obligations.TimeBaseMoves : Prop :=
  ∀ (s : State) (r : Reg), s.pc ≠ lastWord →
    (∃ t, exec (.mftb r 268) s = .next t ∧ (t.gpr r).toNat = s.tb.toNat % 4294967296 ∧ t.pc = s.pc + 4#32 ∧
      OnlyChanges (fun p => p = .gpr r ∨ p = .pc) s t) ∧
    (∃ t, exec (.mftb r 269) s = .next t ∧ (t.gpr r).toNat = s.tb.toNat / 4294967296 ∧ t.pc = s.pc + 4#32 ∧
      OnlyChanges (fun p => p = .gpr r ∨ p = .pc) s t) ∧
    (getBit s.msr 17 = false →
      (∃ t, exec (.mtspr 284 r) s = .next t ∧
        t.tb.toNat = s.tb.toNat / 4294967296 * 4294967296 + (s.gpr r).toNat ∧
        t.pc = s.pc + 4#32 ∧ OnlyChanges (fun p => p = .tbl ∨ p = .pc) s t) ∧
      (∃ t, exec (.mtspr 285 r) s = .next t ∧
        t.tb.toNat = (s.gpr r).toNat * 4294967296 + s.tb.toNat % 4294967296 ∧
        t.pc = s.pc + 4#32 ∧ OnlyChanges (fun p => p = .tbu ∨ p = .pc) s t))

/-- At supervisor level mtspr to 80 gives EE = 1, RI = 1; to 81 EE = 0, RI = 1; to 82 EE = 0, RI = 0. No other MSR bit
and no register changes but the pc. (43_supervisor.md section 2 (R246), 10_state.md section 5 (R59)) -/
def Obligations.EieEidNriSetMsr : Prop :=
  ∀ (s : State) (rS : Reg) (n : Nat) (ee ri : Bool), s.pc ≠ lastWord → getBit s.msr 17 = false →
    (n, ee, ri) ∈ [(80, true, true), (81, false, true), (82, false, false)] →
    ∃ t, exec (.mtspr n rS) s = .next t ∧ getBit t.msr 16 = ee ∧ getBit t.msr 30 = ri ∧ t.pc = s.pc + 4#32 ∧
      OnlyChanges (fun p => p = .msrBit 16 ∨ p = .msrBit 30 ∨ p = .pc) s t

/-- At a level that may make the access: mfspr and mtspr on the instruction-cache, development-support and FPECR
registers (mtspr to 562 excepted) are refused as registers not specified; mtspr to 287 as a write to the PVR; every
other number or direction that R62 does not provide as an SPR not defined. The source is silent on all of them and the
refusals are decision D16 (log 20, log 24). R249 names mtspr to 562 registerNotSpecified and R250 names it
sprNotDefined; that it gets R250's name is the model's: DESIGN CHOICE, log 24. (43_supervisor.md section 2 (R248, R249,
R250), 42_timebase_dec.md (R226), log 20, log 24) -/
def Obligations.SprAccessesRefused : Prop :=
  ∀ (s : State) (r : Reg) (n : Nat), (getBit s.msr 17 = false ∨ n / 16 % 2 = 0) →
    ((144 ≤ n ∧ n ≤ 159) ∨ n = 560 ∨ n = 561 ∨ n = 562 ∨ n = 630 ∨ n = 1022 →
      exec (.mfspr r n) s = .refused .registerNotSpecified ∧
      (n ≠ 562 → exec (.mtspr n r) s = .refused .registerNotSpecified)) ∧
    (n = 287 → exec (.mtspr n r) s = .refused .writeToPvr) ∧
    (n ∉ [1, 8, 9, 18, 19, 22, 26, 27, 80, 81, 82, 272, 273, 274, 275, 287, 560, 561, 562, 630, 1022] →
      ¬ (144 ≤ n ∧ n ≤ 159) → exec (.mfspr r n) s = .refused .sprNotDefined) ∧
    (n ∉ [1, 8, 9, 18, 19, 22, 26, 27, 80, 81, 82, 272, 273, 274, 275, 284, 285, 287, 560, 561, 630, 1022] →
      ¬ (144 ≤ n ∧ n ≤ 159) → exec (.mtspr n r) s = .refused .sprNotDefined) ∧
    (n ≠ 268 → n ≠ 269 → exec (.mftb r n) s = .refused .sprNotDefined)

/-- At supervisor level mfmsr leaves in rD the MSR with bits 0:14, 24 and 26:29 read as 0, and changes nothing else but
the pc; mtmsr leaves each defined MSR bit equal to rS's and the reserved ones 0, and changes nothing else but the pc.
(43_supervisor.md section 1 (R240, R241), 10_state.md section 4 (R49)) -/
def Obligations.MsrMoves : Prop :=
  ∀ (s : State) (r : Reg), s.pc ≠ lastWord → getBit s.msr 17 = false →
    (∃ t, exec (.mfmsr r) s = .next t ∧
      (∀ i : BitNo, getBit (t.gpr r) i.val =
        (if i.val ≤ 14 ∨ i.val = 24 ∨ (26 ≤ i.val ∧ i.val ≤ 29) then false else getBit s.msr i.val)) ∧
      t.pc = s.pc + 4#32 ∧ OnlyChanges (fun p => p = .gpr r ∨ p = .pc) s t) ∧
    (∃ t, exec (.mtmsr r) s = .next t ∧
      (∀ i : BitNo, getBit t.msr i.val =
        (if i.val ≤ 14 ∨ i.val = 24 ∨ (26 ≤ i.val ∧ i.val ≤ 29) then false else getBit (s.gpr r) i.val)) ∧
      t.pc = s.pc + 4#32 ∧ OnlyChanges (fun p => (∃ i, p = .msrBit i) ∨ p = .pc) s t)

/-- mfcr copies the CR to rD; mtcrf copies from rS exactly the fields that CRM selects, at the same positions; mcrf
copies field crfS to field crfD, the source being read first. Each advances the pc and changes nothing else.
(40_cr_xer_lr_ctr.md section 2 (R164, R165, R166)) -/
def Obligations.CrMoves : Prop :=
  ∀ s : State, s.pc ≠ lastWord →
    (∀ rD : Reg, ∃ t, exec (.mfcr rD) s = .next t ∧ t.gpr rD = s.cr ∧ t.pc = s.pc + 4#32 ∧
      OnlyChanges (fun p => p = .gpr rD ∨ p = .pc) s t) ∧
    (∀ (crm : BitVec 8) (rS : Reg), ∃ t, exec (.mtcrf crm rS) s = .next t ∧
      (∀ i : BitNo, crm.getMsbD (i.val / 4) = true → getBit t.cr i.val = getBit (s.gpr rS) i.val) ∧ t.pc = s.pc + 4#32 ∧
      OnlyChanges (fun p => (∃ i : BitNo, crm.getMsbD (i.val / 4) = true ∧ p = .crBit i) ∨ p = .pc) s t) ∧
    (∀ crfD crfS : FieldNo, ∃ t, exec (.mcrf crfD crfS) s = .next t ∧
      (∀ j : Fin 4, getBit t.cr (4 * crfD.val + j.val) = getBit s.cr (4 * crfS.val + j.val)) ∧ t.pc = s.pc + 4#32 ∧
      OnlyChanges (fun p => CrFieldPart crfD p ∨ p = .pc) s t)

/-- mcrxr leaves XER[0:2] as they were, and 0 for the reserved XER[3], in CR field crfD, and clears XER[0:3] (that it
clears them is the spec's general knowledge, GK16, log 39); the pc advances and nothing else changes.
(40_cr_xer_lr_ctr.md section 2 (R167), 10_state.md section 1 (R20)) -/
def Obligations.McrxrCopiesAndClears : Prop :=
  ∀ (s : State) (crfD : FieldNo), s.pc ≠ lastWord → ∃ t, exec (.mcrxr crfD) s = .next t ∧
    (∀ j : Fin 4, getBit t.cr (4 * crfD.val + j.val) = (if j.val = 3 then false else getBit s.xer j.val)) ∧
    (∀ j : Fin 4, getBit t.xer j.val = false) ∧ t.pc = s.pc + 4#32 ∧
    OnlyChanges (fun p => CrFieldPart crfD p ∨ (∃ i : BitNo, i.val < 4 ∧ p = .xerBit i) ∨ p = .pc) s t

/-- crand, cror, crxor, crnand, crnor, creqv, crandc and crorc each answer a next state in which CR bit crbD is the
function of the old bits crbA and crbB (which may coincide with it), the pc has advanced, and nothing else has changed.
The functions are the spec's general knowledge (GK17). (40_cr_xer_lr_ctr.md section 3 (R168 to R176)) -/
def Obligations.CrLogicWritesOneBit : Prop :=
  ∀ (s : State) (d a b : BitNo) (i : Instr) (v : Bool), s.pc ≠ lastWord →
    (i, v) ∈ [(Instr.crand d a b, getBit s.cr a.val && getBit s.cr b.val),
      (.cror d a b, getBit s.cr a.val || getBit s.cr b.val), (.crxor d a b, getBit s.cr a.val != getBit s.cr b.val),
      (.crnand d a b, !(getBit s.cr a.val && getBit s.cr b.val)),
      (.crnor d a b, !(getBit s.cr a.val || getBit s.cr b.val)), (.creqv d a b, getBit s.cr a.val == getBit s.cr b.val),
      (.crandc d a b, getBit s.cr a.val && !getBit s.cr b.val), (.crorc d a b, getBit s.cr a.val || !getBit s.cr b.val)] →
    ∃ t, exec i s = .next t ∧ getBit t.cr d.val = v ∧ t.pc = s.pc + 4#32 ∧
      OnlyChanges (fun p => p = .crBit d ∨ p = .pc) s t

/-- With MSR[FP] = 1, where the result leaves FEX & (FE0 | FE1) = 0: CR field crfD is FPSCR field crfS as it was; FX and
the exception bits of the copied field are 0 and the summary bits are their ORs; the pc advances and nothing else
changes. (41_fpscr.md section 2 (R202), 41_fpscr.md section 1 (R201)) -/
def Obligations.McrfsCopiesAndClears : Prop :=
  ∀ (s : State) (crfD crfS : FieldNo), s.pc ≠ lastWord → getBit s.msr 18 = true → MayMove (mcrfsBits crfS s) s →
    ∃ t, exec (.mcrfs crfD crfS) s = .next t ∧ SettlesTo (mcrfsBits crfS s) t.fpscr ∧
      (∀ j : Fin 4, getBit t.cr (4 * crfD.val + j.val) = getBit s.fpscr (4 * crfS.val + j.val)) ∧ t.pc = s.pc + 4#32 ∧
      OnlyChanges (fun p => CrFieldPart crfD p ∨ (∃ i, p = .fpscrBit i) ∨ p = .pc) s t

/-- With MSR[FP] = 1, where the result leaves FEX & (FE0 | FE1) = 0: with FM[0] = 1 the FPSCR is the fields written, FX
included; with FM[0] = 0 the same but for FX, which follows R203 (its open case is the parameter FX_ON_MTFSF, log 18).
With Rc = 1 CR1 is FPSCR[0:3]. The pc advances; nothing else changes but, with FM[0] = 0, the count of free draws.
(41_fpscr.md section 2 (R204), 41_fpscr.md section 1 (R201, R203, R212), log 18) -/
def Obligations.MtfsfWritesFields : Prop :=
  ∀ (s : State) (fm : BitVec 8) (frB : Reg) (rc : Bool), s.pc ≠ lastWord → getBit s.msr 18 = true →
    MayMove (mtfsfBits fm frB s) s →
    ∃ t, exec (.mtfsf fm frB rc) s = .next t ∧
      (fm.getMsbD 0 = true → SettlesTo (mtfsfBits fm frB s) t.fpscr) ∧
      (fm.getMsbD 0 = false →
        SettlesTo (fun i => if i = 0 then getBit t.fpscr 0 else mtfsfBits fm frB s i) t.fpscr ∧ ImplicitFx s t) ∧
      (rc = true → RecordsCr1 t) ∧ t.pc = s.pc + 4#32 ∧
      OnlyChanges (fun p => (∃ i, p = .fpscrBit i) ∨ (rc = true ∧ CrFieldPart 1 p) ∨ p = .pc ∨
        (fm.getMsbD 0 = false ∧ p = .draws)) s t

/-- As for mtfsf, with the one field crfD taken from IMM: with crfD = 0 FX is IMM[0]; with another field FX follows
R203. (41_fpscr.md section 2 (R205), 41_fpscr.md section 1 (R201, R203, R212), log 18) -/
def Obligations.MtfsfiWritesField : Prop :=
  ∀ (s : State) (crfD : FieldNo) (imm : BitVec 4) (rc : Bool), s.pc ≠ lastWord → getBit s.msr 18 = true →
    MayMove (mtfsfiBits crfD imm s) s →
    ∃ t, exec (.mtfsfi crfD imm rc) s = .next t ∧
      (crfD = 0 → SettlesTo (mtfsfiBits crfD imm s) t.fpscr) ∧
      (crfD ≠ 0 →
        SettlesTo (fun i => if i = 0 then getBit t.fpscr 0 else mtfsfiBits crfD imm s i) t.fpscr ∧ ImplicitFx s t) ∧
      (rc = true → RecordsCr1 t) ∧ t.pc = s.pc + 4#32 ∧
      OnlyChanges (fun p => (∃ i, p = .fpscrBit i) ∨ (rc = true ∧ CrFieldPart 1 p) ∨ p = .pc ∨
        (crfD ≠ 0 ∧ p = .draws)) s t

/-- With MSR[FP] = 1, where the result leaves FEX & (FE0 | FE1) = 0: mtfsb0 clears bit crbD and mtfsb1 sets it, except
that FEX, VX and the reserved bit cannot be written; mtfsb1 of an exception bit that was 0 also sets FX; the summary
bits are the ORs. With Rc = 1 CR1 is FPSCR[0:3]. The pc advances and nothing else changes. (41_fpscr.md section 2 (R206,
R207), 41_fpscr.md section 1 (R201, R203, R212)) -/
def Obligations.Mtfsb0AndMtfsb1WriteOneBit : Prop :=
  ∀ (s : State) (crbD : BitNo) (rc : Bool), s.pc ≠ lastWord → getBit s.msr 18 = true →
    (MayMove (mtfsb0Bits crbD s) s → ∃ t, exec (.mtfsb0 crbD rc) s = .next t ∧ SettlesTo (mtfsb0Bits crbD s) t.fpscr ∧
      (rc = true → RecordsCr1 t) ∧ t.pc = s.pc + 4#32 ∧
      OnlyChanges (fun p => (∃ i, p = .fpscrBit i) ∨ (rc = true ∧ CrFieldPart 1 p) ∨ p = .pc) s t) ∧
    (MayMove (mtfsb1Bits crbD s) s → ∃ t, exec (.mtfsb1 crbD rc) s = .next t ∧ SettlesTo (mtfsb1Bits crbD s) t.fpscr ∧
      (rc = true → RecordsCr1 t) ∧ t.pc = s.pc + 4#32 ∧
      OnlyChanges (fun p => (∃ i, p = .fpscrBit i) ∨ (rc = true ∧ CrFieldPart 1 p) ∨ p = .pc) s t)

/-- With MSR[FP] = 1 mffs answers a next state in which frD[32:63] is the FPSCR, nothing being said of frD[0:31] (log
19); the FPSCR is unchanged; with Rc = 1 CR1 is FPSCR[0:3]; the pc advances and nothing else changes but the count of
free draws. (41_fpscr.md section 2 (R208), 41_fpscr.md section 1 (R212), log 19) -/
def Obligations.MffsReadsFpscr : Prop :=
  ∀ (s : State) (frD : Reg) (rc : Bool), s.pc ≠ lastWord → getBit s.msr 18 = true →
    ∃ t, exec (.mffs frD rc) s = .next t ∧ (t.fpr frD).toNat % 4294967296 = s.fpscr.toNat ∧
      (rc = true → RecordsCr1 t) ∧ t.pc = s.pc + 4#32 ∧
      OnlyChanges (fun p => p = .fpr frD ∨ (rc = true ∧ CrFieldPart 1 p) ∨ p = .pc ∨ p = .draws) s t

/-- With MSR[FP] = 1 and FE0 or FE1 set, each of mcrfs, mtfsf, mtfsfi, mtfsb0 and mtfsb1 whose result has an enabled
exception is refused as an enabled exception after an FPSCR move (decision D13, log 23). (41_fpscr.md section 1 (R210))
-/
def Obligations.OutstandingFpExceptionRefused : Prop :=
  ∀ (s : State) (k q : FieldNo) (d : BitNo) (r : Reg) (fm : BitVec 8) (imm : BitVec 4) (rc : Bool),
    getBit s.msr 18 = true → (getBit s.msr 20 = true ∨ getBit s.msr 23 = true) →
    ∀ i g, (i, g) ∈ [(Instr.mcrfs k q, mcrfsBits q s), (.mtfsf fm r rc, mtfsfBits fm r s),
        (.mtfsfi k imm rc, mtfsfiBits k imm s), (.mtfsb0 d rc, mtfsb0Bits d s), (.mtfsb1 d rc, mtfsb1Bits d s)] →
      fexOfBits g = true → exec i s = .refused .fexEnabledAfterFpscrMove

/-- Each of mtfsf., mtfsfi., mtfsb0., mtfsb1. and mffs., in a state where it runs (MSR[FP] = 1, no enabled exception
left in precise mode), answers a next state whose CR[4:7] is that state's FPSCR[0:3]. (R212) -/
def Obligations.RcRecordsFpStatusInCr1 : Prop :=
  ∀ (s : State) (k : FieldNo) (d : BitNo) (r : Reg) (fm : BitVec 8) (imm : BitVec 4),
    s.pc ≠ lastWord → getBit s.msr 18 = true →
    ∀ i g, (i, g) ∈ [(Instr.mtfsf fm r true, mtfsfBits fm r s), (.mtfsfi k imm true, mtfsfiBits k imm s),
        (.mtfsb0 d true, mtfsb0Bits d s), (.mtfsb1 d true, mtfsb1Bits d s), (.mffs r true, fun _ => false)] →
      MayMove g s → ∃ t, exec i s = .next t ∧ ∀ j : Fin 4, getBit t.cr (4 + j.val) = getBit t.fpscr j.val

/-- In any step of the machine, of any agent: if FX or an exception bit of the FPSCR goes from 1 to 0, the core fetched
an mcrfs, mtfsfi, mtfsf or mtfsb0 that addresses that bit or its field. (R26) -/
def Obligations.FpscrStickiness : Prop :=
  ∀ (s t : State) (b : BitNo), step s = .next t → (b.val = 0 ∨ ExceptionBit b.val) →
    getBit s.fpscr b.val = true → getBit t.fpscr b.val = false → ∃ i, s.fetch = .next i ∧ ClearsFpscrBit i b.val

/-- If VX is the logical OR of the invalid operation exception bits before a step of the machine, it is so after the
step; and any mtfsf, mtfsfi, mtfsb0, mtfsb1 or mcrfs that answers a next state with MSR[FP] = 1 leaves it so from any
state, whatever value the instruction supplies for it. (R29) -/
def Obligations.VxIsTheOr : Prop :=
  (∀ s t : State, step s = .next t → VxIsOr s.fpscr → VxIsOr t.fpscr) ∧
  (∀ (s t : State) (k q : FieldNo) (d : BitNo) (r : Reg) (fm : BitVec 8) (imm : BitVec 4) (rc : Bool) (i : Instr),
    getBit s.msr 18 = true → i ∈ [Instr.mcrfs k q, .mtfsf fm r rc, .mtfsfi k imm rc, .mtfsb0 d rc, .mtfsb1 d rc] →
    exec i s = .next t → VxIsOr t.fpscr)

/-- In every state and for every encodable displacement b answers a next state whose pc is (pc + disp) mod 2^32, or disp
mod 2^32 with AA = 1; LR is pc + 4 with LK = 1 and unchanged otherwise; nothing else changes. (44_supporting.md section
1 (R269, R270)) -/
def Obligations.BranchUnconditional : Prop :=
  ∀ (s : State) (disp : Int) (aa lk : Bool), LiOk disp → ∃ t, exec (.b disp aa lk) s = .next t ∧
    IsTarget (if aa = true then 0 else s.pc.toNat) disp t.pc ∧ (lk = true → t.lr = s.pc + 4#32) ∧
    OnlyChanges (fun p => p = .pc ∨ (lk = true ∧ p = .lr)) s t

/-- With the condition of R269 true, bc answers a next state at its target; with it false, one at the next instruction.
Either way CTR is decremented modulo 2^32 exactly when BO[2] = 0, LR is pc + 4 with LK = 1, and nothing else changes.
(44_supporting.md section 1 (R269, R271)) -/
def Obligations.BranchConditional : Prop :=
  ∀ (s : State) (bo : BitVec 5) (bi : BitNo) (disp : Int) (aa lk : Bool), BdOk disp →
    (BranchCondition bo bi s ∨ s.pc ≠ lastWord) → ∃ t, exec (.bc bo bi disp aa lk) s = .next t ∧
      (BranchCondition bo bi s → IsTarget (if aa = true then 0 else s.pc.toNat) disp t.pc) ∧
      (¬ BranchCondition bo bi s → t.pc = s.pc + 4#32) ∧ t.ctr = ctrAfter bo s ∧ (lk = true → t.lr = s.pc + 4#32) ∧
      OnlyChanges (fun p => p = .pc ∨ (bo.getMsbD 2 = false ∧ p = .ctr) ∨ (lk = true ∧ p = .lr)) s t

/-- bclr as bc, with the target LR[0:29] followed by 00, LR being read before it is rewritten. bcctr with BO[2] = 1
tests the CR part alone, goes to CTR[0:29] followed by 00 and leaves CTR unchanged; with BO[2] = 0 it is refused by name
(U26, log 25). (44_supporting.md section 1 (R269, R272, R273)) -/
def Obligations.BranchToRegister : Prop :=
  (∀ (s : State) (bo : BitVec 5) (bi : BitNo) (lk : Bool), (BranchCondition bo bi s ∨ s.pc ≠ lastWord) →
    ∃ t, exec (.bclr bo bi lk) s = .next t ∧
      (BranchCondition bo bi s → ∀ i : BitNo, getBit t.pc i.val = (decide (i.val < 30) && getBit s.lr i.val)) ∧
      (¬ BranchCondition bo bi s → t.pc = s.pc + 4#32) ∧ t.ctr = ctrAfter bo s ∧ (lk = true → t.lr = s.pc + 4#32) ∧
      OnlyChanges (fun p => p = .pc ∨ (bo.getMsbD 2 = false ∧ p = .ctr) ∨ (lk = true ∧ p = .lr)) s t) ∧
  (∀ (s : State) (bo : BitVec 5) (bi : BitNo) (lk : Bool), bo.getMsbD 2 = true →
    (BranchCondition bo bi s ∨ s.pc ≠ lastWord) → ∃ t, exec (.bcctr bo bi lk) s = .next t ∧
      (BranchCondition bo bi s → ∀ i : BitNo, getBit t.pc i.val = (decide (i.val < 30) && getBit s.ctr i.val)) ∧
      (¬ BranchCondition bo bi s → t.pc = s.pc + 4#32) ∧ (lk = true → t.lr = s.pc + 4#32) ∧
      OnlyChanges (fun p => p = .pc ∨ (lk = true ∧ p = .lr)) s t) ∧
  (∀ (s : State) (bo : BitVec 5) (bi : BitNo) (lk : Bool), bo.getMsbD 2 = false →
    exec (.bcctr bo bi lk) s = .refused .bcctrWithCtrDecrement)

/-- cmp and cmpi compare as signed quantities, cmpl and cmpli as unsigned ones: in the next state the four bits of CR
field crfD are less than, greater than, equal, and XER[SO]; the pc advances and nothing else changes, XER included.
(R179) -/
def Obligations.CompareRecordsOrder : Prop :=
  ∀ (s : State) (crfD : FieldNo) (rA rB : Reg), s.pc ≠ lastWord →
    (∃ t, exec (.cmp crfD rA rB) s = .next t ∧
      RecordsOrder crfD ((s.gpr rA).toInt < (s.gpr rB).toInt) ((s.gpr rB).toInt < (s.gpr rA).toInt)
        (s.gpr rA = s.gpr rB) t ∧
      t.pc = s.pc + 4#32 ∧ OnlyChanges (fun p => CrFieldPart crfD p ∨ p = .pc) s t) ∧
    (∃ t, exec (.cmpl crfD rA rB) s = .next t ∧
      RecordsOrder crfD ((s.gpr rA).toNat < (s.gpr rB).toNat) ((s.gpr rB).toNat < (s.gpr rA).toNat)
        (s.gpr rA = s.gpr rB) t ∧
      t.pc = s.pc + 4#32 ∧ OnlyChanges (fun p => CrFieldPart crfD p ∨ p = .pc) s t) ∧
    (∀ simm : Int, SimmOk simm → ∃ t, exec (.cmpi crfD rA simm) s = .next t ∧
      RecordsOrder crfD ((s.gpr rA).toInt < simm) (simm < (s.gpr rA).toInt) ((s.gpr rA).toInt = simm) t ∧
      t.pc = s.pc + 4#32 ∧ OnlyChanges (fun p => CrFieldPart crfD p ∨ p = .pc) s t) ∧
    (∀ uimm : Nat, UimmOk uimm → ∃ t, exec (.cmpli crfD rA uimm) s = .next t ∧
      RecordsOrder crfD ((s.gpr rA).toNat < uimm) (uimm < (s.gpr rA).toNat) ((s.gpr rA).toNat = uimm) t ∧
      t.pc = s.pc + 4#32 ∧ OnlyChanges (fun p => CrFieldPart crfD p ∨ p = .pc) s t)

/-- Each answers a next state in which CR0 is negative, positive, zero of the value then in the destination register, as
a signed quantity, followed by that state's XER[SO]; subfc with Rc = 0 leaves the CR as it was. (R178) -/
def Obligations.IntegerResultRecordedInCr0 : Prop :=
  ∀ (s : State) (r q u : Reg) (oe : Bool), s.pc ≠ lastWord →
    (∀ simm : Int, SimmOk simm → ∃ t, exec (.addicDot r q simm) s = .next t ∧ RecordsCr0 (t.gpr r) t) ∧
    (∀ uimm : Nat, UimmOk uimm → ∃ t, exec (.andiDot r q uimm) s = .next t ∧ RecordsCr0 (t.gpr r) t) ∧
    (∀ uimm : Nat, UimmOk uimm → ∃ t, exec (.andisDot r q uimm) s = .next t ∧ RecordsCr0 (t.gpr r) t) ∧
    (∃ t, exec (.subfc r q u oe true) s = .next t ∧ RecordsCr0 (t.gpr r) t) ∧
    (∃ t, exec (.subfc r q u oe false) s = .next t ∧ t.cr = s.cr)

/-- For every encodable immediate addi answers a next state in which rD is the sum modulo 2^32 (rA = 0 standing for the
constant 0), the pc has advanced, and nothing else has changed: no CR, no XER. (44_supporting.md section 3 (R280)) -/
def Obligations.AddiAdds : Prop :=
  ∀ (s : State) (rD rA : Reg) (simm : Int), SimmOk simm → s.pc ≠ lastWord → ∃ t, exec (.addi rD rA simm) s = .next t ∧
    ((t.gpr rD).toNat : Int) = ((if rA.val = 0 then 0 else ((s.gpr rA).toNat : Int)) + simm) % 4294967296 ∧
    t.pc = s.pc + 4#32 ∧ OnlyChanges (fun p => p = .gpr rD ∨ p = .pc) s t

/-- For every encodable immediate addic. answers a next state in which rD is the sum modulo 2^32 (rA = 0 is GPR 0 here,
GK18), CA is the carry out of bit 0, CR0 records the result, the pc has advanced, and nothing else has changed: not OV,
not SO. (44_supporting.md section 3 (R281), 40_cr_xer_lr_ctr.md section 4 (R178, R181)) -/
def Obligations.AddicDotAddsAndRecords : Prop :=
  ∀ (s : State) (rD rA : Reg) (simm : Int), SimmOk simm → s.pc ≠ lastWord → ∃ t, exec (.addicDot rD rA simm) s = .next t ∧
    ((t.gpr rD).toNat : Int) = (((s.gpr rA).toNat : Int) + simm) % 4294967296 ∧
    (getBit t.xer 2 = true ↔ (4294967296 : Int) ≤ ((s.gpr rA).toNat : Int) + simm % 4294967296) ∧
    RecordsCr0 (t.gpr rD) t ∧ t.pc = s.pc + 4#32 ∧
    OnlyChanges (fun p => p = .gpr rD ∨ p = .xerBit 2 ∨ CrFieldPart 0 p ∨ p = .pc) s t

/-- For every encodable immediate: bit i of rA is bit i of rS and the immediate's bit of the same weight (shifted by 16
for andis.), CR0 records the result, the pc advances, and nothing else changes: no XER. (44_supporting.md section 3
(R282, R283), 40_cr_xer_lr_ctr.md section 4 (R178)) -/
def Obligations.AndImmediateRecords : Prop :=
  ∀ (s : State) (rA rS : Reg) (uimm : Nat), UimmOk uimm → s.pc ≠ lastWord →
    (∃ t, exec (.andiDot rA rS uimm) s = .next t ∧
      (∀ i : BitNo, getBit (t.gpr rA) i.val = (getBit (s.gpr rS) i.val && uimm.testBit (31 - i.val))) ∧
      RecordsCr0 (t.gpr rA) t ∧ t.pc = s.pc + 4#32 ∧ OnlyChanges (fun p => p = .gpr rA ∨ CrFieldPart 0 p ∨ p = .pc) s t) ∧
    (∃ t, exec (.andisDot rA rS uimm) s = .next t ∧
      (∀ i : BitNo, getBit (t.gpr rA) i.val =
        (getBit (s.gpr rS) i.val && (decide (i.val < 16) && uimm.testBit (15 - i.val)))) ∧
      RecordsCr0 (t.gpr rA) t ∧ t.pc = s.pc + 4#32 ∧ OnlyChanges (fun p => p = .gpr rA ∨ CrFieldPart 0 p ∨ p = .pc) s t)

/-- subfc answers a next state in which rD is (rB - rA) mod 2^32 and CA = 1 exactly when rB is at least rA as unsigned
quantities; with OE = 1 OV is signed overflow of the exact difference (the spec infers it from the two carries) and SO
becomes SO or OV; with Rc = 1 CR0 records the result; the pc advances and nothing else changes. (44_supporting.md
section 3 (R284), 40_cr_xer_lr_ctr.md section 4 (R178, R180, R181)) -/
def Obligations.SubfcSubtracts : Prop :=
  ∀ (s : State) (rD rA rB : Reg) (oe rc : Bool), s.pc ≠ lastWord → ∃ t, exec (.subfc rD rA rB oe rc) s = .next t ∧
    ((t.gpr rD).toNat : Int) = (((s.gpr rB).toNat : Int) - (s.gpr rA).toNat) % 4294967296 ∧
    (getBit t.xer 2 = true ↔ (s.gpr rA).toNat ≤ (s.gpr rB).toNat) ∧
    (oe = true →
      (getBit t.xer 1 = true ↔ (s.gpr rB).toInt - (s.gpr rA).toInt < -2147483648 ∨
        2147483647 < (s.gpr rB).toInt - (s.gpr rA).toInt) ∧
      getBit t.xer 0 = (getBit s.xer 0 || getBit t.xer 1)) ∧
    (rc = true → RecordsCr0 (t.gpr rD) t) ∧ t.pc = s.pc + 4#32 ∧
    OnlyChanges (fun p => p = .gpr rD ∨ p = .xerBit 2 ∨ (oe = true ∧ (p = .xerBit 0 ∨ p = .xerBit 1)) ∨
      (rc = true ∧ CrFieldPart 0 p) ∨ p = .pc) s t

/-- subfc with OE = 1 sets OV to whether the carries out of bits 0 and 1 differ, and sets SO when it sets OV. In any
step of the machine, of any agent: SO goes from 1 to 0 only where software clears it (mtspr to XER, or mcrxr), and from
0 to 1 only there or by a subfc with OE = 1 that sets OV; OV changes only in those ways too, so compares and
instructions that cannot overflow alter neither. (R41, R42) -/
def Obligations.SummaryOverflowAndOverflow : Prop :=
  (∀ (s : State) (rD rA rB : Reg) (rc : Bool), s.pc ≠ lastWord → ∃ t, exec (.subfc rD rA rB true rc) s = .next t ∧
    (getBit t.xer 1 = true ↔
      ¬ (4294967296 ≤ (~~~s.gpr rA).toNat + (s.gpr rB).toNat + 1 ↔
        2147483648 ≤ (~~~s.gpr rA).toNat % 2147483648 + (s.gpr rB).toNat % 2147483648 + 1)) ∧
    (getBit t.xer 1 = true → getBit t.xer 0 = true)) ∧
  (∀ (s t : State), step s = .next t →
    (getBit t.xer 0 ≠ getBit s.xer 0 → ∃ i, s.fetch = .next i ∧
      (SoftwareWritesXer i ∨
        (getBit s.xer 0 = false ∧ getBit t.xer 1 = true ∧ ∃ rD rA rB rc, i = .subfc rD rA rB true rc))) ∧
    (getBit t.xer 1 ≠ getBit s.xer 1 → ∃ i, s.fetch = .next i ∧
      (SoftwareWritesXer i ∨ ∃ rD rA rB rc, i = .subfc rD rA rB true rc)))

/-- For every encodable displacement, with EA = ((rA|0) + d) mod 2^32: in big-endian mode, with EA a multiple of 4 and
its four bytes readable, lwz answers a next state in which rD has the byte at EA as its most significant and so on, the
pc has advanced, and nothing else has changed. With EA not a multiple of 4 it is refused (D6, log 22); outside MEM_MAP
it is refused (D3, log 14); in little-endian mode it is refused (D5, log 21). Alignment is checked first (log 46).
(44_supporting.md section 4 (R286), 20_memory.md section 2 (R111)) -/
def Obligations.LwzLoadsWord : Prop :=
  ∀ (s : State) (rD rA : Reg) (d : Int) (ea : Word), SimmOk d →
    (ea.toNat : Int) = ((if rA.val = 0 then 0 else ((s.gpr rA).toNat : Int)) + d) % 4294967296 →
    (ea.toNat % 4 = 0 → getBit s.msr 31 = false → Accessible Region.mayRead ea 4 s → s.pc ≠ lastWord →
      ∃ t, exec (.lwz rD rA d) s = .next t ∧
        (t.gpr rD).toNat = (Memory.read s.mem ea.toNat).toNat * 16777216 +
          (Memory.read s.mem (ea.toNat + 1)).toNat * 65536 + (Memory.read s.mem (ea.toNat + 2)).toNat * 256 +
          (Memory.read s.mem (ea.toNat + 3)).toNat ∧
        t.pc = s.pc + 4#32 ∧ OnlyChanges (fun p => p = .gpr rD ∨ p = .pc) s t) ∧
    (ea.toNat % 4 ≠ 0 → exec (.lwz rD rA d) s = .refused .misalignedAccess) ∧
    (ea.toNat % 4 = 0 → getBit s.msr 31 = true → exec (.lwz rD rA d) s = .refused .littleEndianMode) ∧
    (ea.toNat % 4 = 0 → getBit s.msr 31 = false → ¬ Accessible Region.mayRead ea 4 s →
      exec (.lwz rD rA d) s = .refused .unmappedAccess)

/-- With the pc at the last word of memory, take any instruction that raises no exception, is not rfi and does not take
a branch: it answers no next state, and wherever it would complete at some other pc, all else being equal, it is refused
under the name of the fall-through; so for the SPR, time-base, MSR and FPSCR moves, lwz and the branches not taken as
for the rest. The CR moves and logic, the compares and the integer instructions, which stop for no other reason, are
refused so in every such state (decision D2, log 26). (10_state.md section 7 (R63), log 26) -/
def Obligations.FallThroughAtLastWordRefused : Prop :=
  ∀ s : State, s.pc = lastWord →
    (∀ i : Instr, syncException i s = none → i ≠ .rfi → (∀ disp aa lk, i ≠ .b disp aa lk) →
      (∀ bo bi disp aa lk, i = .bc bo bi disp aa lk → ¬ BranchCondition bo bi s) →
      (∀ bo bi lk, i = .bclr bo bi lk → ¬ BranchCondition bo bi s) →
      (∀ bo bi lk, i = .bcctr bo bi lk → ¬ BranchCondition bo bi s) →
      (∀ t, exec i s ≠ .next t) ∧
      (∀ (q : Word) (u : State), exec i { s with pc := q } = .next u → exec i s = .refused .pcWrap)) ∧
    (∀ (k q : FieldNo) (d a b : BitNo) (r u v : Reg) (x : Int) (n : Nat) (crm : BitVec 8) (oe rc : Bool),
      ∀ i ∈ [Instr.mfcr r, .mtcrf crm r, .mcrf k q, .mcrxr k, .crand d a b, .cror d a b, .crxor d a b, .crnand d a b,
          .crnor d a b, .creqv d a b, .crandc d a b, .crorc d a b, .cmp k r u, .cmpl k r u, .cmpi k r x, .cmpli k r n,
          .addi r u x, .addicDot r u x, .andiDot r u n, .andisDot r u n, .subfc r u v oe rc],
        exec i s = .refused .pcWrap)

/-- For the memory primitives in a state whose memory has its canonical form: where a four-byte store answers a next
state, a readable four-byte read there gives the stored bytes, a one-byte read gives the most significant one, every
byte outside the four addresses reads as before, and the state changes nowhere else. It answers one exactly in
big-endian mode, inside MEM_MAP for writing, and off every address that may be fetched (D9, log 42). (20_memory.md
section 2 (R111), 20_memory.md section 6 (R109)) -/
def Obligations.StoredWordReadsBack : Prop :=
  ∀ (s : State) (a v : Word), Memory.wf s.mem = true →
    ((∃ t, s.memWrite a (bytesOfWord v) = .next t) ↔
      getBit s.msr 31 = false ∧ Accessible Region.mayWrite a 4 s ∧
        ∀ j, j < 4 → ¬ Accessible Region.mayFetch (a + BitVec.ofNat 32 j) 1 s) ∧
    (∀ t, s.memWrite a (bytesOfWord v) = .next t →
      (Accessible Region.mayRead a 4 s →
        (∃ vs, t.memRead .read a 4 = .next vs ∧ bigEndian vs = v.toNat) ∧
        (∃ vs, t.memRead .read a 1 = .next vs ∧ bigEndian vs = v.toNat / 16777216)) ∧
      OnlyChanges (fun p => ∃ j, j < 4 ∧ p = .memByte ((a.toNat + j) % 4294967296)) s t)

/-- From a state of the invariant, where it runs: mtspr to XER and mtmsr, whatever rS holds, and every FPSCR move,
whatever its operand, leave the reserved bits 0 (XER 3:15 and 24, MSR 0:14, 24 and 26:29, FPSCR 20); mtspr to XER sets
XER[16:23] to the value written and mfspr returns them; mfspr of XER, mfmsr, mffs, mcrfs and mcrxr read 0 in every
reserved bit. (R20) -/
def Obligations.ReservedFields : Prop :=
  ∀ (s : State) (r : Reg), Inv s → s.pc ≠ lastWord →
    (∃ t, exec (.mtspr 1 r) s = .next t ∧
      (∀ i : BitNo, (3 ≤ i.val ∧ i.val ≤ 15) ∨ i.val = 24 → getBit t.xer i.val = false) ∧
      (∀ i : BitNo, 16 ≤ i.val ∧ i.val ≤ 23 → getBit t.xer i.val = getBit (s.gpr r) i.val)) ∧
    (∃ t, exec (.mfspr r 1) s = .next t ∧
      (∀ i : BitNo, (3 ≤ i.val ∧ i.val ≤ 15) ∨ i.val = 24 → getBit (t.gpr r) i.val = false) ∧
      (∀ i : BitNo, 16 ≤ i.val ∧ i.val ≤ 23 → getBit (t.gpr r) i.val = getBit s.xer i.val)) ∧
    (∀ crfD : FieldNo, ∃ t, exec (.mcrxr crfD) s = .next t ∧ getBit t.cr (4 * crfD.val + 3) = false) ∧
    (getBit s.msr 17 = false →
      (∃ t, exec (.mtmsr r) s = .next t ∧
        ∀ i : BitNo, i.val ≤ 14 ∨ i.val = 24 ∨ (26 ≤ i.val ∧ i.val ≤ 29) → getBit t.msr i.val = false) ∧
      (∃ t, exec (.mfmsr r) s = .next t ∧
        ∀ i : BitNo, i.val ≤ 14 ∨ i.val = 24 ∨ (26 ≤ i.val ∧ i.val ≤ 29) → getBit (t.gpr r) i.val = false)) ∧
    (getBit s.msr 18 = true →
      (∀ rc, ∃ t, exec (.mffs r rc) s = .next t ∧ (t.fpr r).getMsbD 52 = false) ∧
      (∀ (k q : FieldNo) (d : BitNo) (fm : BitVec 8) (imm : BitVec 4) (rc : Bool) (i : Instr) (t : State),
        i ∈ [Instr.mcrfs k q, .mtfsf fm r rc, .mtfsfi k imm rc, .mtfsb0 d rc, .mtfsb1 d rc] → exec i s = .next t →
        getBit t.fpscr 20 = false) ∧
      (∀ (k : FieldNo) (t : State), exec (.mcrfs k 5) s = .next t → getBit t.cr (4 * k.val) = false))

/-- At supervisor level mfspr of SPR 287 leaves the PVR in rD; at user level the step leaves every GPR as it was; and no
step of the machine, of any agent, changes the PVR. (R58) -/
def Obligations.PvrIsReadOnly : Prop :=
  (∀ (s : State) (rD : Reg), s.pc ≠ lastWord → getBit s.msr 17 = false →
    ∃ t, exec (.mfspr rD 287) s = .next t ∧ t.gpr rD = s.pvr) ∧
  (∀ (s : State) (rD r : Reg), getBit s.msr 17 = true →
    ∃ t, exec (.mfspr rD 287) s = .next t ∧ t.gpr r = s.gpr r) ∧
  (∀ s t : State, step s = .next t → t.pvr = s.pvr)

/-- In any step of the machine, of any agent: if bit b of the CR changes, the core fetched an instruction that R36 lists
and whose destination is that bit or its field: mtcrf, mcrf, mcrfs, mcrxr, a CR logical instruction, an integer
instruction that records CR0, a floating-point one with Rc = 1 and CR1, or a compare. (10_state.md section 2.2 (R36)) -/
def Obligations.CrWrittenOnlyAsListed : Prop :=
  ∀ (s t : State) (b : BitNo), step s = .next t → getBit t.cr b.val ≠ getBit s.cr b.val →
    ∃ i, s.fetch = .next i ∧ WritesCrBit i b.val

/-- From every state of the invariant, reached or not, every step of any agent that answers a next state answers one of
the invariant. (10_state.md section 1 (R20), 10_state.md section 2.1 (R28, R29), 10_state.md section 7 (R63),
20_memory.md section 2 (R111)) -/
def Obligations.StepKeepsInv : Prop :=
  ∀ s t : State, Inv s → step s = .next t → Inv t

/-- At State.reset the invariant holds; every MSR bit but ME and IP is 0 as the spec says, and these two are 0 by the
model's choice of the parameters (log 11); the pc is the default of R353 for that choice. That the unreset registers fit
the invariant rests on the model's zeros (log 3). (70_reset_and_hazards.md section 1 (R350, R351, R353), 10_state.md
section 9 (R75), log 3, log 11) -/
def Obligations.ResetEstablishesInv : Prop :=
  Inv State.reset ∧ (∀ i : BitNo, getBit State.reset.msr i.val = false) ∧ State.reset.pc = 0x00000100#32 ∧
    State.reset.par.resetIp = false ∧ State.reset.par.resetMe = false

/-- From a state at user level with no asynchronous exception to take, a core step that answers a next state either
stays at user level and changes nothing but GPRs, FPRs, FPSCR, CR, XER, LR, CTR, the pc and the count of free draws, or
makes such changes and then enters an exception, which is at supervisor level. (60_exceptions.md section 7 (R320)) -/
def Obligations.UserLevelIsConfined : Prop :=
  ∀ s c t : State, CoreMoves s c → getBit c.msr 17 = true → NoInterrupt c → step s = .next t →
    (getBit t.msr 17 = true ∧ OnlyChanges UserPart c t) ∨
    (getBit t.msr 17 = false ∧ ∃ u e a, OnlyChanges UserPart c u ∧ EntersVia e a u t)

/-- In any step of the machine, of any agent: if MSR[PR] goes from 0 to 1, the core fetched an rfi with SRR1[17] = 1 or
an mtmsr whose source register has bit 17 set. (60_exceptions.md section 7 (R320)) -/
def Obligations.SupervisorLevelIsLeftOnlyByTwo : Prop :=
  ∀ s t : State, step s = .next t → getBit s.msr 17 = false → getBit t.msr 17 = true →
    (s.fetch = .next .rfi ∧ getBit s.srr1 17 = true) ∨
    (∃ rS, s.fetch = .next (.mtmsr rS) ∧ getBit (s.gpr rS) 17 = true)

/-- Two states at user level that agree on everything but DSISR, DAR, DEC, SRR0, SRR1, the SPRGs, PVR, the unspecified
registers and the two pending requests, neither about to take an asynchronous exception: a step stops in both for the
same reason, or answers in both states that again agree so. (60_exceptions.md section 7 (R320)) -/
def Obligations.SupervisorStateIsHidden : Prop :=
  ∀ s₁ s₂ : State, getBit s₁.msr 17 = true → OnlyChanges SupervisorPart s₁ s₂ → NoInterrupt s₁ → NoInterrupt s₂ →
    (∀ t₁, step s₁ = .next t₁ → ∃ t₂, step s₂ = .next t₂ ∧ OnlyChanges SupervisorPart t₁ t₂) ∧
    (∀ f, step s₁ = .fault f → step s₂ = .fault f) ∧ (∀ f, step s₁ = .refused f → step s₂ = .refused f)

/-- In any step of the machine, of any agent: if dec_req goes from 1 to 0, that step took the decrementer exception,
with EE = 1 and no external request, or asserted reset. (10_state.md section 4 (R54), 60_exceptions.md section 5 (R311))
-/
def Obligations.DecRequestIsNotLost : Prop :=
  ∀ s t : State, step s = .next t → s.decReq = true → t.decReq = false →
    (∃ c, CoreMoves s c ∧ getBit c.msr 16 = true ∧ c.extReq = false ∧ EntersVia .decrementer c.pc c t) ∨
    (∃ rest, s.env = .reset :: rest)

/-- In any step of the machine, of any agent: every byte of memory, the parameters of the run, and the
instruction-cache, development-support and FPECR registers are as before (no instruction of the table stores). The spec
says less: R249 only refuses the access to those registers, and that they never change is the model's, after decision
D21 (R319): DESIGN CHOICE, log 20. That no other agent writes memory is decision D8 (R108, log 8). That the parameters
stand in a constant field is log 1. (00_scope.md section 2 (R4), 20_memory.md section 6 (R108, R109), 43_supervisor.md
section 2 (R249), log 1, log 8, log 20) -/
def Obligations.ConstantsAreKept : Prop :=
  ∀ s t : State, step s = .next t →
    (∀ a, Memory.read t.mem a = Memory.read s.mem a) ∧ t.mem = s.mem ∧ t.par = s.par ∧ t.unspecified = s.unspecified
end

