-- ==== Sys2Proof/Laws/Bits.lean ====
section
/-! SUPPORT. What reading a bit or a field gives after each bit-field operation. -/

namespace Sys2Proof.Machine

theorem getBit_eq_getLsbD (v : Word) (i : Nat) (hi : i < 32) : getBit v i = v.getLsbD (31 - i) := by
  simp [getBit, BitVec.getMsbD_eq_getLsbD, hi]

theorem getBit_out (v : Word) (i : Nat) (hi : 32 ≤ i) : getBit v i = false := by
  simp [getBit, BitVec.getMsbD_eq_getLsbD, Nat.not_lt.mpr hi]

/-- Two words with the same bits are equal. -/
theorem eq_of_getBit (a b : Word) (h : ∀ i, i < 32 → getBit a i = getBit b i) : a = b :=
  BitVec.eq_of_getMsbD_eq h

@[simp] theorem getBit_zero (i : Nat) : getBit 0#32 i = false := by simp [getBit]

@[simp] theorem getBit_and (a b : Word) (i : Nat) : getBit (a &&& b) i = (getBit a i && getBit b i) := by
  simp [getBit]

@[simp] theorem getBit_or (a b : Word) (i : Nat) : getBit (a ||| b) i = (getBit a i || getBit b i) := by
  simp [getBit]

theorem getBit_not (a : Word) (i : Nat) (hi : i < 32) : getBit (~~~a) i = !getBit a i := by
  simp [getBit, hi]

theorem getBit_bitMask (i j : Nat) (hi : i < 32) (hj : j < 32) : getBit (bitMask i) j = decide (j = i) := by
  rw [getBit_eq_getLsbD _ _ hj, bitMask, BitVec.getLsbD_twoPow, Bool.eq_iff_iff]
  simp only [Bool.and_eq_true, decide_eq_true_eq]
  omega

theorem getBit_putBit (v : Word) (i j : Nat) (b : Bool) (hi : i < 32) (hj : j < 32) :
    getBit (putBit v i b) j = if j = i then b else getBit v j := by
  cases b <;> by_cases h : j = i <;> simp [putBit, getBit_not, getBit_bitMask, hi, hj, h]

theorem getBit_nibbleMask (k : Fin 8) (i : Nat) (hi : i < 32) : getBit (nibbleMask k) i = decide (i / 4 = k.val) := by
  have h : ∀ (k : Fin 8) (i : Fin 32), getBit (nibbleMask k) i.val = decide (i.val / 4 = k.val) := by decide
  exact h k ⟨i, hi⟩

theorem getMsbD_getNibble (v : Word) (k : Fin 8) (j : Nat) (hj : j < 4) :
    (getNibble v k).getMsbD j = getBit v (4 * k.val + j) := by
  have hk := k.isLt
  rw [getBit_eq_getLsbD _ _ (by omega), BitVec.getMsbD_eq_getLsbD, getNibble, BitVec.getLsbD_extractLsb']
  have e : 28 - 4 * k.val + (4 - 1 - j) = 31 - (4 * k.val + j) := by omega
  simp only [hj, show 4 - 1 - j < 4 by omega, decide_true, Bool.true_and, e]

theorem getBit_putNibble (v : Word) (k : Fin 8) (x : BitVec 4) (i : Nat) (hi : i < 32) :
    getBit (putNibble v k x) i = if i / 4 = k.val then x.getMsbD (i % 4) else getBit v i := by
  have hk := k.isLt
  have hx : getBit (x.setWidth 32 <<< (28 - 4 * k.val)) i = (decide (i / 4 = k.val) && x.getMsbD (i % 4)) := by
    rw [getBit_eq_getLsbD _ _ hi, BitVec.getLsbD_shiftLeft, BitVec.getLsbD_setWidth, BitVec.getMsbD_eq_getLsbD]
    by_cases h : i / 4 = k.val
    · have e : 31 - i - (28 - 4 * k.val) = 4 - 1 - i % 4 := by omega
      simp [h, e, show 31 - i < 32 by omega, show ¬ 31 - i < 28 - 4 * k.val by omega, show i % 4 < 4 by omega,
        show 3 - i % 4 < 32 by omega]
    · by_cases h' : 31 - i < 28 - 4 * k.val
      · simp [h, h']
      · have : x.getLsbD (31 - i - (28 - 4 * k.val)) = false := BitVec.getLsbD_of_ge _ _ (by omega)
        simp [h, this]
  rw [putNibble, getBit_or, getBit_and, getBit_not _ _ hi, getBit_nibbleMask _ _ hi, hx]
  by_cases h : i / 4 = k.val <;> simp [h]

theorem getNibble_putNibble_same (v : Word) (k : Fin 8) (x : BitVec 4) : getNibble (putNibble v k x) k = x := by
  have hk := k.isLt
  refine BitVec.eq_of_getMsbD_eq fun j hj => ?_
  rw [getMsbD_getNibble _ _ _ hj, getBit_putNibble _ _ _ _ (by omega)]
  simp [show (4 * k.val + j) / 4 = k.val by omega, show (4 * k.val + j) % 4 = j by omega]

theorem getBit_fieldsMask (m : BitVec 8) (i : Nat) (hi : i < 32) : getBit (fieldsMask m) i = m.getMsbD (i / 4) := by
  have step : ∀ (ks : List (Fin 8)) (acc : Word),
      getBit (ks.foldl (fun acc k => if m.getMsbD k.val then acc ||| nibbleMask k else acc) acc) i =
        (getBit acc i || ks.any (fun k => m.getMsbD k.val && decide (i / 4 = k.val))) := by
    intro ks
    induction ks with
    | nil => simp
    | cons k ks ih =>
      intro acc
      rw [List.foldl_cons, ih, List.any_cons]
      by_cases hm : m.getMsbD k.val = true
      · simp [hm, getBit_nibbleMask, hi, Bool.or_assoc]
      · simp [Bool.not_eq_true _ ▸ hm]
  rw [fieldsMask, step]
  have hk : i / 4 < 8 := by omega
  by_cases hm : m.getMsbD (i / 4) = true
  · simp only [getBit_zero, Bool.false_or, hm, List.any_eq_true]
    exact ⟨⟨i / 4, hk⟩, List.mem_finRange _, by simp [hm]⟩
  · rw [Bool.not_eq_true] at hm
    rw [hm]
    simp only [getBit_zero, Bool.false_or, List.any_eq_false]
    intro k _ h
    simp only [Bool.and_eq_true, decide_eq_true_eq] at h
    rw [← h.2, hm] at h
    exact absurd h.1 (by decide)

theorem getBit_putFields (old v : Word) (m : BitVec 8) (i : Nat) (hi : i < 32) :
    getBit (putFields old v m) i = if m.getMsbD (i / 4) then getBit v i else getBit old i := by
  simp only [putFields, getBit_or, getBit_and, getBit_not _ _ hi, getBit_fieldsMask _ _ hi]
  cases m.getMsbD (i / 4) <;> simp

theorem getBit_dropLowTwo (v : Word) (i : Nat) (hi : i < 32) : getBit (dropLowTwo v) i = (getBit v i && decide (i < 30)) := by
  have h : ∀ i : Fin 32, getBit 0xFFFFFFFC#32 i.val = decide (i.val < 30) := by decide
  rw [dropLowTwo, getBit_and, h ⟨i, hi⟩]

theorem dropLowTwo_aligned (v : Word) : (dropLowTwo v).toNat % 4 = 0 := by
  have e : dropLowTwo v = (v >>> 2) <<< 2 := by
    refine BitVec.eq_of_getLsbD_eq fun i hi => ?_
    have h : ∀ i : Fin 32, (0xFFFFFFFC#32).getLsbD i.val = decide (2 ≤ i.val) := by decide
    rw [dropLowTwo, BitVec.getLsbD_and, h ⟨i, hi⟩, BitVec.getLsbD_shiftLeft, BitVec.getLsbD_ushiftRight]
    by_cases h2 : i < 2
    · simp [h2]
    · simp [h2, hi, Nat.not_lt.mp h2, show 2 + (i - 2) = i by omega]
  rw [e, BitVec.toNat_shiftLeft, Nat.shiftLeft_eq]
  omega

/-! ### Flags -/

theorem getBit_withCa (x : Word) (ca : Bool) (i : Nat) (hi : i < 32) :
    getBit (withCa x ca) i = if i = 2 then ca else getBit x i := getBit_putBit _ _ _ _ (by decide) hi

theorem getBit_withOv (x : Word) (ov : Bool) (i : Nat) (hi : i < 32) :
    getBit (withOv x ov) i = if i = 0 then getBit x 0 || ov else if i = 1 then ov else getBit x i := by
  rw [withOv, getBit_putBit _ _ _ _ (by decide) hi, getBit_putBit _ _ _ _ (by decide) hi]

/-- What `fix_summary` leaves in each bit (R201). -/
theorem getBit_fixSummary (f : Word) (i : Nat) (hi : i < 32) :
    getBit (fixSummary f) i =
      if i = 1 then fexOf (putBit (putBit f 20 false) 2 (vxOf (putBit f 20 false)))
      else if i = 2 then vxOf (putBit f 20 false)
      else if i = 20 then false else getBit f i := by
  simp only [fixSummary, getBit_putBit _ _ _ _ (show 1 < 32 by decide) hi,
    getBit_putBit _ _ _ _ (show 2 < 32 by decide) hi, getBit_putBit _ _ _ _ (show 20 < 32 by decide) hi]

/-- A masked value is not zero exactly when it has a bit under the mask. -/
theorem and_ne_zero_iff (a m : Word) :
    (a &&& m != 0#32) = true ↔ ∃ i : Fin 32, getBit a i.val = true ∧ getBit m i.val = true := by
  rw [bne_iff_ne]
  constructor
  · intro h
    by_contra hc
    refine h (eq_of_getBit _ _ fun i hi => ?_)
    rw [getBit_and, getBit_zero, ← Bool.not_eq_true, Bool.and_eq_true]
    exact fun hb => hc ⟨⟨i, hi⟩, hb⟩
  · rintro ⟨i, ha, hm⟩ he
    have hz : getBit (a &&& m) i.val = false := by rw [he, getBit_zero]
    simp [ha, hm] at hz

/-- VX is the logical OR of the nine invalid operation bits (R29). -/
theorem vxOf_eq (f : Word) :
    vxOf f = (getBit f 7 || getBit f 8 || getBit f 9 || getBit f 10 || getBit f 11 || getBit f 12 || getBit f 21 ||
      getBit f 22 || getBit f 23) := by
  have hm : ∀ i : Fin 32, getBit fpInvalidMask i.val = true →
      i = 7 ∨ i = 8 ∨ i = 9 ∨ i = 10 ∨ i = 11 ∨ i = 12 ∨ i = 21 ∨ i = 22 ∨ i = 23 := by decide
  rw [vxOf, Bool.eq_iff_iff, and_ne_zero_iff]
  simp only [Bool.or_eq_true]
  constructor
  · rintro ⟨i, hf, hi⟩
    rcases hm i hi with rfl | rfl | rfl | rfl | rfl | rfl | rfl | rfl | rfl <;> simp_all
  · rintro ((((((((h | h) | h) | h) | h) | h) | h) | h) | h)
    exacts [⟨7, h, by decide⟩, ⟨8, h, by decide⟩, ⟨9, h, by decide⟩, ⟨10, h, by decide⟩, ⟨11, h, by decide⟩,
      ⟨12, h, by decide⟩, ⟨21, h, by decide⟩, ⟨22, h, by decide⟩, ⟨23, h, by decide⟩]

/-- A rise is an exception bit that goes from 0 to 1 (R203). -/
theorem fpRise_iff (old new : Word) :
    fpRise old new = true ↔
      ∃ i : Fin 32, getBit fpExceptionMask i.val = true ∧ getBit old i.val = false ∧ getBit new i.val = true := by
  rw [fpRise, and_ne_zero_iff]
  refine exists_congr fun i => ?_
  rw [getBit_and, getBit_not _ _ i.isLt]
  cases getBit old i.val <;> cases getBit new i.val <;> simp

end Sys2Proof.Machine
end

