-- ==== Sys2Proof/Laws/Memory.lean ====
section
/-! SUPPORT. Memory keeps its canonical form, and a read after a write gives the value written and nothing else changes. -/

namespace Sys2Proof.Machine

theorem Memory.wfFrom_cons {lo a : Nat} {v : Byte} {rest : Memory} :
    Memory.wfFrom lo ((a, v) :: rest) = true ↔
      lo ≤ a ∧ a < 4294967296 ∧ v ≠ unlistedByte ∧ Memory.wfFrom (a + 1) rest = true := by
  simp [Memory.wfFrom, and_assoc]

theorem Memory.wfFrom_mono {lo lo' : Nat} (h : lo' ≤ lo) {m : Memory} (hm : Memory.wfFrom lo m = true) :
    Memory.wfFrom lo' m = true := by
  cases m with
  | nil => rfl
  | cons p rest =>
    obtain ⟨a, v⟩ := p
    rw [Memory.wfFrom_cons] at hm ⊢
    exact ⟨h.trans hm.1, hm.2⟩

/-- Below its first address a canonical memory lists nothing. -/
theorem Memory.read_below {m : Memory} {lo a : Nat} (hm : Memory.wfFrom lo m = true) (h : a < lo) :
    Memory.read m a = unlistedByte := by
  induction m generalizing lo with
  | nil => rfl
  | cons p rest ih =>
    obtain ⟨b, v⟩ := p
    rw [Memory.wfFrom_cons] at hm
    rw [Memory.read, if_neg (by omega), ih hm.2.2.2 (by omega)]

theorem Memory.write_wfFrom {m : Memory} {lo a : Nat} {v : Byte} (hm : Memory.wfFrom lo m = true) (hlo : lo ≤ a)
    (ha : a < 4294967296) : Memory.wfFrom lo (Memory.write m a v) = true := by
  induction m generalizing lo with
  | nil =>
    rw [Memory.write]
    split
    · rfl
    · rename_i hv
      exact Memory.wfFrom_cons.mpr ⟨hlo, ha, hv, rfl⟩
  | cons p rest ih =>
    obtain ⟨b, u⟩ := p
    have hc := Memory.wfFrom_cons.mp hm
    rw [Memory.write]
    split
    · rename_i hab
      split
      · exact hm
      · rename_i hv
        exact Memory.wfFrom_cons.mpr ⟨hlo, ha, hv, Memory.wfFrom_cons.mpr ⟨hab, hc.2⟩⟩
    · rename_i hab
      split
      · rename_i heq
        split
        · exact Memory.wfFrom_mono (by omega) hc.2.2.2
        · rename_i hv
          exact Memory.wfFrom_cons.mpr ⟨hlo, ha, hv, heq ▸ hc.2.2.2⟩
      · rename_i hne
        exact Memory.wfFrom_cons.mpr ⟨hc.1, hc.2.1, hc.2.2.1, ih hc.2.2.2 (by omega)⟩

/-- A write keeps the canonical form. -/
theorem Memory.write_wf {m : Memory} {a : Nat} {v : Byte} (hm : Memory.wf m = true) (ha : a < 4294967296) :
    Memory.wf (Memory.write m a v) = true := Memory.write_wfFrom hm (Nat.zero_le a) ha

/-- A write of several bytes keeps the canonical form. -/
theorem Memory.writeBytes_wf {m : Memory} {a : Word} {vs : List Byte} (hm : Memory.wf m = true) :
    Memory.wf (Memory.writeBytes m a vs) = true := by
  induction vs generalizing m a with
  | nil => exact hm
  | cons v rest ih => exact ih (Memory.write_wf hm a.isLt)

/-- Reading after a write (R111): the byte written, and every other byte as before. -/
theorem Memory.read_write {m : Memory} {lo a b : Nat} {v : Byte} (hm : Memory.wfFrom lo m = true) :
    Memory.read (Memory.write m a v) b = if b = a then v else Memory.read m b := by
  induction m generalizing lo with
  | nil =>
    by_cases hv : v = unlistedByte <;> by_cases hb : b = a <;> simp [Memory.write, Memory.read, hv, hb]
  | cons p rest ih =>
    obtain ⟨c, u⟩ := p
    have hc := Memory.wfFrom_cons.mp hm
    have hrest : ∀ x, x ≤ c → Memory.read rest x = unlistedByte := fun x hx =>
      Memory.read_below hc.2.2.2 (by omega)
    rw [Memory.write]
    by_cases hac : a < c
    · rw [if_pos hac]
      by_cases hv : v = unlistedByte
      · rw [if_pos hv]
        by_cases hb : b = a
        · rw [if_pos hb, Memory.read, if_neg (by omega), hrest b (by omega), hv]
        · rw [if_neg hb]
      · rw [if_neg hv, Memory.read]
    · rw [if_neg hac]
      by_cases heq : a = c
      · subst heq
        rw [if_pos rfl]
        by_cases hv : v = unlistedByte
        · rw [if_pos hv]
          by_cases hb : b = a
          · rw [if_pos hb, hb, hrest a (Nat.le_refl a), hv]
          · rw [if_neg hb, Memory.read, if_neg hb]
        · rw [if_neg hv, Memory.read, Memory.read]
          by_cases hb : b = a <;> simp [hb]
      · rw [if_neg heq, Memory.read, Memory.read, ih hc.2.2.2]
        by_cases hbc : b = c
        · rw [if_pos hbc, if_pos hbc, if_neg (by omega)]
        · rw [if_neg hbc, if_neg hbc]

/-- The store primitive keeps the canonical form. -/
theorem State.memWrite_wf {s t : State} {a : Word} {vs : List Byte} (hs : Memory.wf s.mem = true)
    (h : s.memWrite a vs = .next t) : Memory.wf t.mem = true := by
  unfold State.memWrite at h
  split at h
  · cases h
  · split at h
    · cases h
    · split at h
      · cases h
      · cases h
        exact Memory.writeBytes_wf hs

/-- Placing an instruction keeps the canonical form. -/
theorem State.withFetchWord_wf {s : State} {nbits w : Nat} (hs : Memory.wf s.mem = true) :
    Memory.wf (s.withFetchWord nbits w).mem = true := by
  have e : s.quiet.bigEndianMode.withFetchMapped.coreNext.mem = s.mem := by
    have h1 : s.quiet.mem = s.mem := by
      unfold State.quiet
      split <;> rfl
    have h2 : s.quiet.bigEndianMode.mem = s.quiet.mem := by
      unfold State.bigEndianMode
      split <;> rfl
    have h3 : s.quiet.bigEndianMode.withFetchMapped.mem = s.quiet.bigEndianMode.mem := by
      unfold State.withFetchMapped
      split <;> rfl
    have h4 : s.quiet.bigEndianMode.withFetchMapped.coreNext.mem = s.quiet.bigEndianMode.withFetchMapped.mem := by
      unfold State.coreNext
      split <;> rfl
    rw [h4, h3, h2, h1]
  exact Memory.writeBytes_wf (e.symm ▸ hs)

theorem reset_mem_wf : Memory.wf State.reset.mem = true := rfl

end Sys2Proof.Machine
end

