-- ==== Sys2Proof/Laws/State.lean ====
section
/-! SUPPORT. Each field after each named update: true by definition, so that no proof unfolds an update. -/

namespace Sys2Proof.Machine

open Sys2Proof.Config

variable (s : State)

/-! State.setGpr -/

@[simp] theorem State.setGpr_gprs (r : Reg) (v : Word) : (s.setGpr r v).gprs = s.gprs.set r.val v r.isLt := rfl
@[simp] theorem State.setGpr_fprs (r : Reg) (v : Word) : (s.setGpr r v).fprs = s.fprs := rfl
@[simp] theorem State.setGpr_fpscr (r : Reg) (v : Word) : (s.setGpr r v).fpscr = s.fpscr := rfl
@[simp] theorem State.setGpr_cr (r : Reg) (v : Word) : (s.setGpr r v).cr = s.cr := rfl
@[simp] theorem State.setGpr_xer (r : Reg) (v : Word) : (s.setGpr r v).xer = s.xer := rfl
@[simp] theorem State.setGpr_lr (r : Reg) (v : Word) : (s.setGpr r v).lr = s.lr := rfl
@[simp] theorem State.setGpr_ctr (r : Reg) (v : Word) : (s.setGpr r v).ctr = s.ctr := rfl
@[simp] theorem State.setGpr_tb (r : Reg) (v : Word) : (s.setGpr r v).tb = s.tb := rfl
@[simp] theorem State.setGpr_msr (r : Reg) (v : Word) : (s.setGpr r v).msr = s.msr := rfl
@[simp] theorem State.setGpr_dsisr (r : Reg) (v : Word) : (s.setGpr r v).dsisr = s.dsisr := rfl
@[simp] theorem State.setGpr_dar (r : Reg) (v : Word) : (s.setGpr r v).dar = s.dar := rfl
@[simp] theorem State.setGpr_dec (r : Reg) (v : Word) : (s.setGpr r v).dec = s.dec := rfl
@[simp] theorem State.setGpr_srr0 (r : Reg) (v : Word) : (s.setGpr r v).srr0 = s.srr0 := rfl
@[simp] theorem State.setGpr_srr1 (r : Reg) (v : Word) : (s.setGpr r v).srr1 = s.srr1 := rfl
@[simp] theorem State.setGpr_sprg (r : Reg) (v : Word) : (s.setGpr r v).sprg = s.sprg := rfl
@[simp] theorem State.setGpr_pvr (r : Reg) (v : Word) : (s.setGpr r v).pvr = s.pvr := rfl
@[simp] theorem State.setGpr_unspecified (r : Reg) (v : Word) : (s.setGpr r v).unspecified = s.unspecified := rfl
@[simp] theorem State.setGpr_pc (r : Reg) (v : Word) : (s.setGpr r v).pc = s.pc := rfl
@[simp] theorem State.setGpr_decReq (r : Reg) (v : Word) : (s.setGpr r v).decReq = s.decReq := rfl
@[simp] theorem State.setGpr_extReq (r : Reg) (v : Word) : (s.setGpr r v).extReq = s.extReq := rfl
@[simp] theorem State.setGpr_mem (r : Reg) (v : Word) : (s.setGpr r v).mem = s.mem := rfl
@[simp] theorem State.setGpr_par (r : Reg) (v : Word) : (s.setGpr r v).par = s.par := rfl
@[simp] theorem State.setGpr_env (r : Reg) (v : Word) : (s.setGpr r v).env = s.env := rfl
@[simp] theorem State.setGpr_draws (r : Reg) (v : Word) : (s.setGpr r v).draws = s.draws := rfl
@[simp] theorem State.setGpr_fpr (r : Reg) (v : Word) (q : Reg) : (s.setGpr r v).fpr q = s.fpr q := rfl

/-! State.setFpr -/

@[simp] theorem State.setFpr_gprs (r : Reg) (v : DWord) : (s.setFpr r v).gprs = s.gprs := rfl
@[simp] theorem State.setFpr_fprs (r : Reg) (v : DWord) : (s.setFpr r v).fprs = s.fprs.set r.val v r.isLt := rfl
@[simp] theorem State.setFpr_fpscr (r : Reg) (v : DWord) : (s.setFpr r v).fpscr = s.fpscr := rfl
@[simp] theorem State.setFpr_cr (r : Reg) (v : DWord) : (s.setFpr r v).cr = s.cr := rfl
@[simp] theorem State.setFpr_xer (r : Reg) (v : DWord) : (s.setFpr r v).xer = s.xer := rfl
@[simp] theorem State.setFpr_lr (r : Reg) (v : DWord) : (s.setFpr r v).lr = s.lr := rfl
@[simp] theorem State.setFpr_ctr (r : Reg) (v : DWord) : (s.setFpr r v).ctr = s.ctr := rfl
@[simp] theorem State.setFpr_tb (r : Reg) (v : DWord) : (s.setFpr r v).tb = s.tb := rfl
@[simp] theorem State.setFpr_msr (r : Reg) (v : DWord) : (s.setFpr r v).msr = s.msr := rfl
@[simp] theorem State.setFpr_dsisr (r : Reg) (v : DWord) : (s.setFpr r v).dsisr = s.dsisr := rfl
@[simp] theorem State.setFpr_dar (r : Reg) (v : DWord) : (s.setFpr r v).dar = s.dar := rfl
@[simp] theorem State.setFpr_dec (r : Reg) (v : DWord) : (s.setFpr r v).dec = s.dec := rfl
@[simp] theorem State.setFpr_srr0 (r : Reg) (v : DWord) : (s.setFpr r v).srr0 = s.srr0 := rfl
@[simp] theorem State.setFpr_srr1 (r : Reg) (v : DWord) : (s.setFpr r v).srr1 = s.srr1 := rfl
@[simp] theorem State.setFpr_sprg (r : Reg) (v : DWord) : (s.setFpr r v).sprg = s.sprg := rfl
@[simp] theorem State.setFpr_pvr (r : Reg) (v : DWord) : (s.setFpr r v).pvr = s.pvr := rfl
@[simp] theorem State.setFpr_unspecified (r : Reg) (v : DWord) : (s.setFpr r v).unspecified = s.unspecified := rfl
@[simp] theorem State.setFpr_pc (r : Reg) (v : DWord) : (s.setFpr r v).pc = s.pc := rfl
@[simp] theorem State.setFpr_decReq (r : Reg) (v : DWord) : (s.setFpr r v).decReq = s.decReq := rfl
@[simp] theorem State.setFpr_extReq (r : Reg) (v : DWord) : (s.setFpr r v).extReq = s.extReq := rfl
@[simp] theorem State.setFpr_mem (r : Reg) (v : DWord) : (s.setFpr r v).mem = s.mem := rfl
@[simp] theorem State.setFpr_par (r : Reg) (v : DWord) : (s.setFpr r v).par = s.par := rfl
@[simp] theorem State.setFpr_env (r : Reg) (v : DWord) : (s.setFpr r v).env = s.env := rfl
@[simp] theorem State.setFpr_draws (r : Reg) (v : DWord) : (s.setFpr r v).draws = s.draws := rfl
@[simp] theorem State.setFpr_gpr (r : Reg) (v : DWord) (q : Reg) : (s.setFpr r v).gpr q = s.gpr q := rfl

/-! State.setCrField -/

@[simp] theorem State.setCrField_gprs (k : FieldNo) (x : BitVec 4) : (s.setCrField k x).gprs = s.gprs := rfl
@[simp] theorem State.setCrField_fprs (k : FieldNo) (x : BitVec 4) : (s.setCrField k x).fprs = s.fprs := rfl
@[simp] theorem State.setCrField_fpscr (k : FieldNo) (x : BitVec 4) : (s.setCrField k x).fpscr = s.fpscr := rfl
@[simp] theorem State.setCrField_cr (k : FieldNo) (x : BitVec 4) : (s.setCrField k x).cr = putNibble s.cr k x := rfl
@[simp] theorem State.setCrField_xer (k : FieldNo) (x : BitVec 4) : (s.setCrField k x).xer = s.xer := rfl
@[simp] theorem State.setCrField_lr (k : FieldNo) (x : BitVec 4) : (s.setCrField k x).lr = s.lr := rfl
@[simp] theorem State.setCrField_ctr (k : FieldNo) (x : BitVec 4) : (s.setCrField k x).ctr = s.ctr := rfl
@[simp] theorem State.setCrField_tb (k : FieldNo) (x : BitVec 4) : (s.setCrField k x).tb = s.tb := rfl
@[simp] theorem State.setCrField_msr (k : FieldNo) (x : BitVec 4) : (s.setCrField k x).msr = s.msr := rfl
@[simp] theorem State.setCrField_dsisr (k : FieldNo) (x : BitVec 4) : (s.setCrField k x).dsisr = s.dsisr := rfl
@[simp] theorem State.setCrField_dar (k : FieldNo) (x : BitVec 4) : (s.setCrField k x).dar = s.dar := rfl
@[simp] theorem State.setCrField_dec (k : FieldNo) (x : BitVec 4) : (s.setCrField k x).dec = s.dec := rfl
@[simp] theorem State.setCrField_srr0 (k : FieldNo) (x : BitVec 4) : (s.setCrField k x).srr0 = s.srr0 := rfl
@[simp] theorem State.setCrField_srr1 (k : FieldNo) (x : BitVec 4) : (s.setCrField k x).srr1 = s.srr1 := rfl
@[simp] theorem State.setCrField_sprg (k : FieldNo) (x : BitVec 4) : (s.setCrField k x).sprg = s.sprg := rfl
@[simp] theorem State.setCrField_pvr (k : FieldNo) (x : BitVec 4) : (s.setCrField k x).pvr = s.pvr := rfl
@[simp] theorem State.setCrField_unspecified (k : FieldNo) (x : BitVec 4) : (s.setCrField k x).unspecified = s.unspecified := rfl
@[simp] theorem State.setCrField_pc (k : FieldNo) (x : BitVec 4) : (s.setCrField k x).pc = s.pc := rfl
@[simp] theorem State.setCrField_decReq (k : FieldNo) (x : BitVec 4) : (s.setCrField k x).decReq = s.decReq := rfl
@[simp] theorem State.setCrField_extReq (k : FieldNo) (x : BitVec 4) : (s.setCrField k x).extReq = s.extReq := rfl
@[simp] theorem State.setCrField_mem (k : FieldNo) (x : BitVec 4) : (s.setCrField k x).mem = s.mem := rfl
@[simp] theorem State.setCrField_par (k : FieldNo) (x : BitVec 4) : (s.setCrField k x).par = s.par := rfl
@[simp] theorem State.setCrField_env (k : FieldNo) (x : BitVec 4) : (s.setCrField k x).env = s.env := rfl
@[simp] theorem State.setCrField_draws (k : FieldNo) (x : BitVec 4) : (s.setCrField k x).draws = s.draws := rfl
@[simp] theorem State.setCrField_gpr (k : FieldNo) (x : BitVec 4) (q : Reg) : (s.setCrField k x).gpr q = s.gpr q := rfl
@[simp] theorem State.setCrField_fpr (k : FieldNo) (x : BitVec 4) (q : Reg) : (s.setCrField k x).fpr q = s.fpr q := rfl

/-! State.recordCr0 -/

@[simp] theorem State.recordCr0_gprs (v : Word) : (s.recordCr0 v).gprs = s.gprs := rfl
@[simp] theorem State.recordCr0_fprs (v : Word) : (s.recordCr0 v).fprs = s.fprs := rfl
@[simp] theorem State.recordCr0_fpscr (v : Word) : (s.recordCr0 v).fpscr = s.fpscr := rfl
@[simp] theorem State.recordCr0_cr (v : Word) : (s.recordCr0 v).cr = putNibble s.cr 0 (recordField v (getBit s.xer 0)) := rfl
@[simp] theorem State.recordCr0_xer (v : Word) : (s.recordCr0 v).xer = s.xer := rfl
@[simp] theorem State.recordCr0_lr (v : Word) : (s.recordCr0 v).lr = s.lr := rfl
@[simp] theorem State.recordCr0_ctr (v : Word) : (s.recordCr0 v).ctr = s.ctr := rfl
@[simp] theorem State.recordCr0_tb (v : Word) : (s.recordCr0 v).tb = s.tb := rfl
@[simp] theorem State.recordCr0_msr (v : Word) : (s.recordCr0 v).msr = s.msr := rfl
@[simp] theorem State.recordCr0_dsisr (v : Word) : (s.recordCr0 v).dsisr = s.dsisr := rfl
@[simp] theorem State.recordCr0_dar (v : Word) : (s.recordCr0 v).dar = s.dar := rfl
@[simp] theorem State.recordCr0_dec (v : Word) : (s.recordCr0 v).dec = s.dec := rfl
@[simp] theorem State.recordCr0_srr0 (v : Word) : (s.recordCr0 v).srr0 = s.srr0 := rfl
@[simp] theorem State.recordCr0_srr1 (v : Word) : (s.recordCr0 v).srr1 = s.srr1 := rfl
@[simp] theorem State.recordCr0_sprg (v : Word) : (s.recordCr0 v).sprg = s.sprg := rfl
@[simp] theorem State.recordCr0_pvr (v : Word) : (s.recordCr0 v).pvr = s.pvr := rfl
@[simp] theorem State.recordCr0_unspecified (v : Word) : (s.recordCr0 v).unspecified = s.unspecified := rfl
@[simp] theorem State.recordCr0_pc (v : Word) : (s.recordCr0 v).pc = s.pc := rfl
@[simp] theorem State.recordCr0_decReq (v : Word) : (s.recordCr0 v).decReq = s.decReq := rfl
@[simp] theorem State.recordCr0_extReq (v : Word) : (s.recordCr0 v).extReq = s.extReq := rfl
@[simp] theorem State.recordCr0_mem (v : Word) : (s.recordCr0 v).mem = s.mem := rfl
@[simp] theorem State.recordCr0_par (v : Word) : (s.recordCr0 v).par = s.par := rfl
@[simp] theorem State.recordCr0_env (v : Word) : (s.recordCr0 v).env = s.env := rfl
@[simp] theorem State.recordCr0_draws (v : Word) : (s.recordCr0 v).draws = s.draws := rfl
@[simp] theorem State.recordCr0_gpr (v : Word) (q : Reg) : (s.recordCr0 v).gpr q = s.gpr q := rfl
@[simp] theorem State.recordCr0_fpr (v : Word) (q : Reg) : (s.recordCr0 v).fpr q = s.fpr q := rfl

/-! State.recordCr1 -/

@[simp] theorem State.recordCr1_gprs : s.recordCr1.gprs = s.gprs := rfl
@[simp] theorem State.recordCr1_fprs : s.recordCr1.fprs = s.fprs := rfl
@[simp] theorem State.recordCr1_fpscr : s.recordCr1.fpscr = s.fpscr := rfl
@[simp] theorem State.recordCr1_cr : s.recordCr1.cr = putNibble s.cr 1 (getNibble s.fpscr 0) := rfl
@[simp] theorem State.recordCr1_xer : s.recordCr1.xer = s.xer := rfl
@[simp] theorem State.recordCr1_lr : s.recordCr1.lr = s.lr := rfl
@[simp] theorem State.recordCr1_ctr : s.recordCr1.ctr = s.ctr := rfl
@[simp] theorem State.recordCr1_tb : s.recordCr1.tb = s.tb := rfl
@[simp] theorem State.recordCr1_msr : s.recordCr1.msr = s.msr := rfl
@[simp] theorem State.recordCr1_dsisr : s.recordCr1.dsisr = s.dsisr := rfl
@[simp] theorem State.recordCr1_dar : s.recordCr1.dar = s.dar := rfl
@[simp] theorem State.recordCr1_dec : s.recordCr1.dec = s.dec := rfl
@[simp] theorem State.recordCr1_srr0 : s.recordCr1.srr0 = s.srr0 := rfl
@[simp] theorem State.recordCr1_srr1 : s.recordCr1.srr1 = s.srr1 := rfl
@[simp] theorem State.recordCr1_sprg : s.recordCr1.sprg = s.sprg := rfl
@[simp] theorem State.recordCr1_pvr : s.recordCr1.pvr = s.pvr := rfl
@[simp] theorem State.recordCr1_unspecified : s.recordCr1.unspecified = s.unspecified := rfl
@[simp] theorem State.recordCr1_pc : s.recordCr1.pc = s.pc := rfl
@[simp] theorem State.recordCr1_decReq : s.recordCr1.decReq = s.decReq := rfl
@[simp] theorem State.recordCr1_extReq : s.recordCr1.extReq = s.extReq := rfl
@[simp] theorem State.recordCr1_mem : s.recordCr1.mem = s.mem := rfl
@[simp] theorem State.recordCr1_par : s.recordCr1.par = s.par := rfl
@[simp] theorem State.recordCr1_env : s.recordCr1.env = s.env := rfl
@[simp] theorem State.recordCr1_draws : s.recordCr1.draws = s.draws := rfl
@[simp] theorem State.recordCr1_gpr (q : Reg) : s.recordCr1.gpr q = s.gpr q := rfl
@[simp] theorem State.recordCr1_fpr (q : Reg) : s.recordCr1.fpr q = s.fpr q := rfl

/-! State.crLogic -/

@[simp] theorem State.crLogic_gprs (op : Bool → Bool → Bool) (d a b : BitNo) : (s.crLogic op d a b).gprs = s.gprs := rfl
@[simp] theorem State.crLogic_fprs (op : Bool → Bool → Bool) (d a b : BitNo) : (s.crLogic op d a b).fprs = s.fprs := rfl
@[simp] theorem State.crLogic_fpscr (op : Bool → Bool → Bool) (d a b : BitNo) : (s.crLogic op d a b).fpscr = s.fpscr := rfl
@[simp] theorem State.crLogic_cr (op : Bool → Bool → Bool) (d a b : BitNo) : (s.crLogic op d a b).cr = putBit s.cr d.val (op (s.crBit a) (s.crBit b)) := rfl
@[simp] theorem State.crLogic_xer (op : Bool → Bool → Bool) (d a b : BitNo) : (s.crLogic op d a b).xer = s.xer := rfl
@[simp] theorem State.crLogic_lr (op : Bool → Bool → Bool) (d a b : BitNo) : (s.crLogic op d a b).lr = s.lr := rfl
@[simp] theorem State.crLogic_ctr (op : Bool → Bool → Bool) (d a b : BitNo) : (s.crLogic op d a b).ctr = s.ctr := rfl
@[simp] theorem State.crLogic_tb (op : Bool → Bool → Bool) (d a b : BitNo) : (s.crLogic op d a b).tb = s.tb := rfl
@[simp] theorem State.crLogic_msr (op : Bool → Bool → Bool) (d a b : BitNo) : (s.crLogic op d a b).msr = s.msr := rfl
@[simp] theorem State.crLogic_dsisr (op : Bool → Bool → Bool) (d a b : BitNo) : (s.crLogic op d a b).dsisr = s.dsisr := rfl
@[simp] theorem State.crLogic_dar (op : Bool → Bool → Bool) (d a b : BitNo) : (s.crLogic op d a b).dar = s.dar := rfl
@[simp] theorem State.crLogic_dec (op : Bool → Bool → Bool) (d a b : BitNo) : (s.crLogic op d a b).dec = s.dec := rfl
@[simp] theorem State.crLogic_srr0 (op : Bool → Bool → Bool) (d a b : BitNo) : (s.crLogic op d a b).srr0 = s.srr0 := rfl
@[simp] theorem State.crLogic_srr1 (op : Bool → Bool → Bool) (d a b : BitNo) : (s.crLogic op d a b).srr1 = s.srr1 := rfl
@[simp] theorem State.crLogic_sprg (op : Bool → Bool → Bool) (d a b : BitNo) : (s.crLogic op d a b).sprg = s.sprg := rfl
@[simp] theorem State.crLogic_pvr (op : Bool → Bool → Bool) (d a b : BitNo) : (s.crLogic op d a b).pvr = s.pvr := rfl
@[simp] theorem State.crLogic_unspecified (op : Bool → Bool → Bool) (d a b : BitNo) : (s.crLogic op d a b).unspecified = s.unspecified := rfl
@[simp] theorem State.crLogic_pc (op : Bool → Bool → Bool) (d a b : BitNo) : (s.crLogic op d a b).pc = s.pc := rfl
@[simp] theorem State.crLogic_decReq (op : Bool → Bool → Bool) (d a b : BitNo) : (s.crLogic op d a b).decReq = s.decReq := rfl
@[simp] theorem State.crLogic_extReq (op : Bool → Bool → Bool) (d a b : BitNo) : (s.crLogic op d a b).extReq = s.extReq := rfl
@[simp] theorem State.crLogic_mem (op : Bool → Bool → Bool) (d a b : BitNo) : (s.crLogic op d a b).mem = s.mem := rfl
@[simp] theorem State.crLogic_par (op : Bool → Bool → Bool) (d a b : BitNo) : (s.crLogic op d a b).par = s.par := rfl
@[simp] theorem State.crLogic_env (op : Bool → Bool → Bool) (d a b : BitNo) : (s.crLogic op d a b).env = s.env := rfl
@[simp] theorem State.crLogic_draws (op : Bool → Bool → Bool) (d a b : BitNo) : (s.crLogic op d a b).draws = s.draws := rfl
@[simp] theorem State.crLogic_gpr (op : Bool → Bool → Bool) (d a b : BitNo) (q : Reg) : (s.crLogic op d a b).gpr q = s.gpr q := rfl
@[simp] theorem State.crLogic_fpr (op : Bool → Bool → Bool) (d a b : BitNo) (q : Reg) : (s.crLogic op d a b).fpr q = s.fpr q := rfl

/-! State.setXer -/

@[simp] theorem State.setXer_gprs (v : Word) : (s.setXer v).gprs = s.gprs := rfl
@[simp] theorem State.setXer_fprs (v : Word) : (s.setXer v).fprs = s.fprs := rfl
@[simp] theorem State.setXer_fpscr (v : Word) : (s.setXer v).fpscr = s.fpscr := rfl
@[simp] theorem State.setXer_cr (v : Word) : (s.setXer v).cr = s.cr := rfl
@[simp] theorem State.setXer_xer (v : Word) : (s.setXer v).xer = v &&& xerMask := rfl
@[simp] theorem State.setXer_lr (v : Word) : (s.setXer v).lr = s.lr := rfl
@[simp] theorem State.setXer_ctr (v : Word) : (s.setXer v).ctr = s.ctr := rfl
@[simp] theorem State.setXer_tb (v : Word) : (s.setXer v).tb = s.tb := rfl
@[simp] theorem State.setXer_msr (v : Word) : (s.setXer v).msr = s.msr := rfl
@[simp] theorem State.setXer_dsisr (v : Word) : (s.setXer v).dsisr = s.dsisr := rfl
@[simp] theorem State.setXer_dar (v : Word) : (s.setXer v).dar = s.dar := rfl
@[simp] theorem State.setXer_dec (v : Word) : (s.setXer v).dec = s.dec := rfl
@[simp] theorem State.setXer_srr0 (v : Word) : (s.setXer v).srr0 = s.srr0 := rfl
@[simp] theorem State.setXer_srr1 (v : Word) : (s.setXer v).srr1 = s.srr1 := rfl
@[simp] theorem State.setXer_sprg (v : Word) : (s.setXer v).sprg = s.sprg := rfl
@[simp] theorem State.setXer_pvr (v : Word) : (s.setXer v).pvr = s.pvr := rfl
@[simp] theorem State.setXer_unspecified (v : Word) : (s.setXer v).unspecified = s.unspecified := rfl
@[simp] theorem State.setXer_pc (v : Word) : (s.setXer v).pc = s.pc := rfl
@[simp] theorem State.setXer_decReq (v : Word) : (s.setXer v).decReq = s.decReq := rfl
@[simp] theorem State.setXer_extReq (v : Word) : (s.setXer v).extReq = s.extReq := rfl
@[simp] theorem State.setXer_mem (v : Word) : (s.setXer v).mem = s.mem := rfl
@[simp] theorem State.setXer_par (v : Word) : (s.setXer v).par = s.par := rfl
@[simp] theorem State.setXer_env (v : Word) : (s.setXer v).env = s.env := rfl
@[simp] theorem State.setXer_draws (v : Word) : (s.setXer v).draws = s.draws := rfl
@[simp] theorem State.setXer_gpr (v : Word) (q : Reg) : (s.setXer v).gpr q = s.gpr q := rfl
@[simp] theorem State.setXer_fpr (v : Word) (q : Reg) : (s.setXer v).fpr q = s.fpr q := rfl

/-! State.setMsr -/

@[simp] theorem State.setMsr_gprs (v : Word) : (s.setMsr v).gprs = s.gprs := rfl
@[simp] theorem State.setMsr_fprs (v : Word) : (s.setMsr v).fprs = s.fprs := rfl
@[simp] theorem State.setMsr_fpscr (v : Word) : (s.setMsr v).fpscr = s.fpscr := rfl
@[simp] theorem State.setMsr_cr (v : Word) : (s.setMsr v).cr = s.cr := rfl
@[simp] theorem State.setMsr_xer (v : Word) : (s.setMsr v).xer = s.xer := rfl
@[simp] theorem State.setMsr_lr (v : Word) : (s.setMsr v).lr = s.lr := rfl
@[simp] theorem State.setMsr_ctr (v : Word) : (s.setMsr v).ctr = s.ctr := rfl
@[simp] theorem State.setMsr_tb (v : Word) : (s.setMsr v).tb = s.tb := rfl
@[simp] theorem State.setMsr_msr (v : Word) : (s.setMsr v).msr = v &&& msrMask := rfl
@[simp] theorem State.setMsr_dsisr (v : Word) : (s.setMsr v).dsisr = s.dsisr := rfl
@[simp] theorem State.setMsr_dar (v : Word) : (s.setMsr v).dar = s.dar := rfl
@[simp] theorem State.setMsr_dec (v : Word) : (s.setMsr v).dec = s.dec := rfl
@[simp] theorem State.setMsr_srr0 (v : Word) : (s.setMsr v).srr0 = s.srr0 := rfl
@[simp] theorem State.setMsr_srr1 (v : Word) : (s.setMsr v).srr1 = s.srr1 := rfl
@[simp] theorem State.setMsr_sprg (v : Word) : (s.setMsr v).sprg = s.sprg := rfl
@[simp] theorem State.setMsr_pvr (v : Word) : (s.setMsr v).pvr = s.pvr := rfl
@[simp] theorem State.setMsr_unspecified (v : Word) : (s.setMsr v).unspecified = s.unspecified := rfl
@[simp] theorem State.setMsr_pc (v : Word) : (s.setMsr v).pc = s.pc := rfl
@[simp] theorem State.setMsr_decReq (v : Word) : (s.setMsr v).decReq = s.decReq := rfl
@[simp] theorem State.setMsr_extReq (v : Word) : (s.setMsr v).extReq = s.extReq := rfl
@[simp] theorem State.setMsr_mem (v : Word) : (s.setMsr v).mem = s.mem := rfl
@[simp] theorem State.setMsr_par (v : Word) : (s.setMsr v).par = s.par := rfl
@[simp] theorem State.setMsr_env (v : Word) : (s.setMsr v).env = s.env := rfl
@[simp] theorem State.setMsr_draws (v : Word) : (s.setMsr v).draws = s.draws := rfl
@[simp] theorem State.setMsr_gpr (v : Word) (q : Reg) : (s.setMsr v).gpr q = s.gpr q := rfl
@[simp] theorem State.setMsr_fpr (v : Word) (q : Reg) : (s.setMsr v).fpr q = s.fpr q := rfl

/-! State.setEeRi -/

@[simp] theorem State.setEeRi_gprs (ee ri : Bool) : (s.setEeRi ee ri).gprs = s.gprs := rfl
@[simp] theorem State.setEeRi_fprs (ee ri : Bool) : (s.setEeRi ee ri).fprs = s.fprs := rfl
@[simp] theorem State.setEeRi_fpscr (ee ri : Bool) : (s.setEeRi ee ri).fpscr = s.fpscr := rfl
@[simp] theorem State.setEeRi_cr (ee ri : Bool) : (s.setEeRi ee ri).cr = s.cr := rfl
@[simp] theorem State.setEeRi_xer (ee ri : Bool) : (s.setEeRi ee ri).xer = s.xer := rfl
@[simp] theorem State.setEeRi_lr (ee ri : Bool) : (s.setEeRi ee ri).lr = s.lr := rfl
@[simp] theorem State.setEeRi_ctr (ee ri : Bool) : (s.setEeRi ee ri).ctr = s.ctr := rfl
@[simp] theorem State.setEeRi_tb (ee ri : Bool) : (s.setEeRi ee ri).tb = s.tb := rfl
@[simp] theorem State.setEeRi_msr (ee ri : Bool) : (s.setEeRi ee ri).msr = putBit (putBit s.msr 16 ee) 30 ri := rfl
@[simp] theorem State.setEeRi_dsisr (ee ri : Bool) : (s.setEeRi ee ri).dsisr = s.dsisr := rfl
@[simp] theorem State.setEeRi_dar (ee ri : Bool) : (s.setEeRi ee ri).dar = s.dar := rfl
@[simp] theorem State.setEeRi_dec (ee ri : Bool) : (s.setEeRi ee ri).dec = s.dec := rfl
@[simp] theorem State.setEeRi_srr0 (ee ri : Bool) : (s.setEeRi ee ri).srr0 = s.srr0 := rfl
@[simp] theorem State.setEeRi_srr1 (ee ri : Bool) : (s.setEeRi ee ri).srr1 = s.srr1 := rfl
@[simp] theorem State.setEeRi_sprg (ee ri : Bool) : (s.setEeRi ee ri).sprg = s.sprg := rfl
@[simp] theorem State.setEeRi_pvr (ee ri : Bool) : (s.setEeRi ee ri).pvr = s.pvr := rfl
@[simp] theorem State.setEeRi_unspecified (ee ri : Bool) : (s.setEeRi ee ri).unspecified = s.unspecified := rfl
@[simp] theorem State.setEeRi_pc (ee ri : Bool) : (s.setEeRi ee ri).pc = s.pc := rfl
@[simp] theorem State.setEeRi_decReq (ee ri : Bool) : (s.setEeRi ee ri).decReq = s.decReq := rfl
@[simp] theorem State.setEeRi_extReq (ee ri : Bool) : (s.setEeRi ee ri).extReq = s.extReq := rfl
@[simp] theorem State.setEeRi_mem (ee ri : Bool) : (s.setEeRi ee ri).mem = s.mem := rfl
@[simp] theorem State.setEeRi_par (ee ri : Bool) : (s.setEeRi ee ri).par = s.par := rfl
@[simp] theorem State.setEeRi_env (ee ri : Bool) : (s.setEeRi ee ri).env = s.env := rfl
@[simp] theorem State.setEeRi_draws (ee ri : Bool) : (s.setEeRi ee ri).draws = s.draws := rfl
@[simp] theorem State.setEeRi_gpr (ee ri : Bool) (q : Reg) : (s.setEeRi ee ri).gpr q = s.gpr q := rfl
@[simp] theorem State.setEeRi_fpr (ee ri : Bool) (q : Reg) : (s.setEeRi ee ri).fpr q = s.fpr q := rfl

/-! State.setSprg -/

@[simp] theorem State.setSprg_gprs (k : Fin 4) (v : Word) : (s.setSprg k v).gprs = s.gprs := rfl
@[simp] theorem State.setSprg_fprs (k : Fin 4) (v : Word) : (s.setSprg k v).fprs = s.fprs := rfl
@[simp] theorem State.setSprg_fpscr (k : Fin 4) (v : Word) : (s.setSprg k v).fpscr = s.fpscr := rfl
@[simp] theorem State.setSprg_cr (k : Fin 4) (v : Word) : (s.setSprg k v).cr = s.cr := rfl
@[simp] theorem State.setSprg_xer (k : Fin 4) (v : Word) : (s.setSprg k v).xer = s.xer := rfl
@[simp] theorem State.setSprg_lr (k : Fin 4) (v : Word) : (s.setSprg k v).lr = s.lr := rfl
@[simp] theorem State.setSprg_ctr (k : Fin 4) (v : Word) : (s.setSprg k v).ctr = s.ctr := rfl
@[simp] theorem State.setSprg_tb (k : Fin 4) (v : Word) : (s.setSprg k v).tb = s.tb := rfl
@[simp] theorem State.setSprg_msr (k : Fin 4) (v : Word) : (s.setSprg k v).msr = s.msr := rfl
@[simp] theorem State.setSprg_dsisr (k : Fin 4) (v : Word) : (s.setSprg k v).dsisr = s.dsisr := rfl
@[simp] theorem State.setSprg_dar (k : Fin 4) (v : Word) : (s.setSprg k v).dar = s.dar := rfl
@[simp] theorem State.setSprg_dec (k : Fin 4) (v : Word) : (s.setSprg k v).dec = s.dec := rfl
@[simp] theorem State.setSprg_srr0 (k : Fin 4) (v : Word) : (s.setSprg k v).srr0 = s.srr0 := rfl
@[simp] theorem State.setSprg_srr1 (k : Fin 4) (v : Word) : (s.setSprg k v).srr1 = s.srr1 := rfl
@[simp] theorem State.setSprg_sprg (k : Fin 4) (v : Word) : (s.setSprg k v).sprg = s.sprg.set k.val v k.isLt := rfl
@[simp] theorem State.setSprg_pvr (k : Fin 4) (v : Word) : (s.setSprg k v).pvr = s.pvr := rfl
@[simp] theorem State.setSprg_unspecified (k : Fin 4) (v : Word) : (s.setSprg k v).unspecified = s.unspecified := rfl
@[simp] theorem State.setSprg_pc (k : Fin 4) (v : Word) : (s.setSprg k v).pc = s.pc := rfl
@[simp] theorem State.setSprg_decReq (k : Fin 4) (v : Word) : (s.setSprg k v).decReq = s.decReq := rfl
@[simp] theorem State.setSprg_extReq (k : Fin 4) (v : Word) : (s.setSprg k v).extReq = s.extReq := rfl
@[simp] theorem State.setSprg_mem (k : Fin 4) (v : Word) : (s.setSprg k v).mem = s.mem := rfl
@[simp] theorem State.setSprg_par (k : Fin 4) (v : Word) : (s.setSprg k v).par = s.par := rfl
@[simp] theorem State.setSprg_env (k : Fin 4) (v : Word) : (s.setSprg k v).env = s.env := rfl
@[simp] theorem State.setSprg_draws (k : Fin 4) (v : Word) : (s.setSprg k v).draws = s.draws := rfl
@[simp] theorem State.setSprg_gpr (k : Fin 4) (v : Word) (q : Reg) : (s.setSprg k v).gpr q = s.gpr q := rfl
@[simp] theorem State.setSprg_fpr (k : Fin 4) (v : Word) (q : Reg) : (s.setSprg k v).fpr q = s.fpr q := rfl

/-! State.setTbl -/

@[simp] theorem State.setTbl_gprs (v : Word) : (s.setTbl v).gprs = s.gprs := rfl
@[simp] theorem State.setTbl_fprs (v : Word) : (s.setTbl v).fprs = s.fprs := rfl
@[simp] theorem State.setTbl_fpscr (v : Word) : (s.setTbl v).fpscr = s.fpscr := rfl
@[simp] theorem State.setTbl_cr (v : Word) : (s.setTbl v).cr = s.cr := rfl
@[simp] theorem State.setTbl_xer (v : Word) : (s.setTbl v).xer = s.xer := rfl
@[simp] theorem State.setTbl_lr (v : Word) : (s.setTbl v).lr = s.lr := rfl
@[simp] theorem State.setTbl_ctr (v : Word) : (s.setTbl v).ctr = s.ctr := rfl
@[simp] theorem State.setTbl_tb (v : Word) : (s.setTbl v).tb = s.tbu ++ v := rfl
@[simp] theorem State.setTbl_msr (v : Word) : (s.setTbl v).msr = s.msr := rfl
@[simp] theorem State.setTbl_dsisr (v : Word) : (s.setTbl v).dsisr = s.dsisr := rfl
@[simp] theorem State.setTbl_dar (v : Word) : (s.setTbl v).dar = s.dar := rfl
@[simp] theorem State.setTbl_dec (v : Word) : (s.setTbl v).dec = s.dec := rfl
@[simp] theorem State.setTbl_srr0 (v : Word) : (s.setTbl v).srr0 = s.srr0 := rfl
@[simp] theorem State.setTbl_srr1 (v : Word) : (s.setTbl v).srr1 = s.srr1 := rfl
@[simp] theorem State.setTbl_sprg (v : Word) : (s.setTbl v).sprg = s.sprg := rfl
@[simp] theorem State.setTbl_pvr (v : Word) : (s.setTbl v).pvr = s.pvr := rfl
@[simp] theorem State.setTbl_unspecified (v : Word) : (s.setTbl v).unspecified = s.unspecified := rfl
@[simp] theorem State.setTbl_pc (v : Word) : (s.setTbl v).pc = s.pc := rfl
@[simp] theorem State.setTbl_decReq (v : Word) : (s.setTbl v).decReq = s.decReq := rfl
@[simp] theorem State.setTbl_extReq (v : Word) : (s.setTbl v).extReq = s.extReq := rfl
@[simp] theorem State.setTbl_mem (v : Word) : (s.setTbl v).mem = s.mem := rfl
@[simp] theorem State.setTbl_par (v : Word) : (s.setTbl v).par = s.par := rfl
@[simp] theorem State.setTbl_env (v : Word) : (s.setTbl v).env = s.env := rfl
@[simp] theorem State.setTbl_draws (v : Word) : (s.setTbl v).draws = s.draws := rfl
@[simp] theorem State.setTbl_gpr (v : Word) (q : Reg) : (s.setTbl v).gpr q = s.gpr q := rfl
@[simp] theorem State.setTbl_fpr (v : Word) (q : Reg) : (s.setTbl v).fpr q = s.fpr q := rfl

/-! State.setTbu -/

@[simp] theorem State.setTbu_gprs (v : Word) : (s.setTbu v).gprs = s.gprs := rfl
@[simp] theorem State.setTbu_fprs (v : Word) : (s.setTbu v).fprs = s.fprs := rfl
@[simp] theorem State.setTbu_fpscr (v : Word) : (s.setTbu v).fpscr = s.fpscr := rfl
@[simp] theorem State.setTbu_cr (v : Word) : (s.setTbu v).cr = s.cr := rfl
@[simp] theorem State.setTbu_xer (v : Word) : (s.setTbu v).xer = s.xer := rfl
@[simp] theorem State.setTbu_lr (v : Word) : (s.setTbu v).lr = s.lr := rfl
@[simp] theorem State.setTbu_ctr (v : Word) : (s.setTbu v).ctr = s.ctr := rfl
@[simp] theorem State.setTbu_tb (v : Word) : (s.setTbu v).tb = v ++ s.tbl := rfl
@[simp] theorem State.setTbu_msr (v : Word) : (s.setTbu v).msr = s.msr := rfl
@[simp] theorem State.setTbu_dsisr (v : Word) : (s.setTbu v).dsisr = s.dsisr := rfl
@[simp] theorem State.setTbu_dar (v : Word) : (s.setTbu v).dar = s.dar := rfl
@[simp] theorem State.setTbu_dec (v : Word) : (s.setTbu v).dec = s.dec := rfl
@[simp] theorem State.setTbu_srr0 (v : Word) : (s.setTbu v).srr0 = s.srr0 := rfl
@[simp] theorem State.setTbu_srr1 (v : Word) : (s.setTbu v).srr1 = s.srr1 := rfl
@[simp] theorem State.setTbu_sprg (v : Word) : (s.setTbu v).sprg = s.sprg := rfl
@[simp] theorem State.setTbu_pvr (v : Word) : (s.setTbu v).pvr = s.pvr := rfl
@[simp] theorem State.setTbu_unspecified (v : Word) : (s.setTbu v).unspecified = s.unspecified := rfl
@[simp] theorem State.setTbu_pc (v : Word) : (s.setTbu v).pc = s.pc := rfl
@[simp] theorem State.setTbu_decReq (v : Word) : (s.setTbu v).decReq = s.decReq := rfl
@[simp] theorem State.setTbu_extReq (v : Word) : (s.setTbu v).extReq = s.extReq := rfl
@[simp] theorem State.setTbu_mem (v : Word) : (s.setTbu v).mem = s.mem := rfl
@[simp] theorem State.setTbu_par (v : Word) : (s.setTbu v).par = s.par := rfl
@[simp] theorem State.setTbu_env (v : Word) : (s.setTbu v).env = s.env := rfl
@[simp] theorem State.setTbu_draws (v : Word) : (s.setTbu v).draws = s.draws := rfl
@[simp] theorem State.setTbu_gpr (v : Word) (q : Reg) : (s.setTbu v).gpr q = s.gpr q := rfl
@[simp] theorem State.setTbu_fpr (v : Word) (q : Reg) : (s.setTbu v).fpr q = s.fpr q := rfl

/-! State.tbTick -/

@[simp] theorem State.tbTick_gprs : s.tbTick.gprs = s.gprs := rfl
@[simp] theorem State.tbTick_fprs : s.tbTick.fprs = s.fprs := rfl
@[simp] theorem State.tbTick_fpscr : s.tbTick.fpscr = s.fpscr := rfl
@[simp] theorem State.tbTick_cr : s.tbTick.cr = s.cr := rfl
@[simp] theorem State.tbTick_xer : s.tbTick.xer = s.xer := rfl
@[simp] theorem State.tbTick_lr : s.tbTick.lr = s.lr := rfl
@[simp] theorem State.tbTick_ctr : s.tbTick.ctr = s.ctr := rfl
@[simp] theorem State.tbTick_tb : s.tbTick.tb = s.tb + 1#64 := rfl
@[simp] theorem State.tbTick_msr : s.tbTick.msr = s.msr := rfl
@[simp] theorem State.tbTick_dsisr : s.tbTick.dsisr = s.dsisr := rfl
@[simp] theorem State.tbTick_dar : s.tbTick.dar = s.dar := rfl
@[simp] theorem State.tbTick_dec : s.tbTick.dec = s.dec := rfl
@[simp] theorem State.tbTick_srr0 : s.tbTick.srr0 = s.srr0 := rfl
@[simp] theorem State.tbTick_srr1 : s.tbTick.srr1 = s.srr1 := rfl
@[simp] theorem State.tbTick_sprg : s.tbTick.sprg = s.sprg := rfl
@[simp] theorem State.tbTick_pvr : s.tbTick.pvr = s.pvr := rfl
@[simp] theorem State.tbTick_unspecified : s.tbTick.unspecified = s.unspecified := rfl
@[simp] theorem State.tbTick_pc : s.tbTick.pc = s.pc := rfl
@[simp] theorem State.tbTick_decReq : s.tbTick.decReq = s.decReq := rfl
@[simp] theorem State.tbTick_extReq : s.tbTick.extReq = s.extReq := rfl
@[simp] theorem State.tbTick_mem : s.tbTick.mem = s.mem := rfl
@[simp] theorem State.tbTick_par : s.tbTick.par = s.par := rfl
@[simp] theorem State.tbTick_env : s.tbTick.env = s.env := rfl
@[simp] theorem State.tbTick_draws : s.tbTick.draws = s.draws := rfl
@[simp] theorem State.tbTick_gpr (q : Reg) : s.tbTick.gpr q = s.gpr q := rfl
@[simp] theorem State.tbTick_fpr (q : Reg) : s.tbTick.fpr q = s.fpr q := rfl

/-! State.setDec -/

@[simp] theorem State.setDec_gprs (v : Word) : (s.setDec v).gprs = s.gprs := rfl
@[simp] theorem State.setDec_fprs (v : Word) : (s.setDec v).fprs = s.fprs := rfl
@[simp] theorem State.setDec_fpscr (v : Word) : (s.setDec v).fpscr = s.fpscr := rfl
@[simp] theorem State.setDec_cr (v : Word) : (s.setDec v).cr = s.cr := rfl
@[simp] theorem State.setDec_xer (v : Word) : (s.setDec v).xer = s.xer := rfl
@[simp] theorem State.setDec_lr (v : Word) : (s.setDec v).lr = s.lr := rfl
@[simp] theorem State.setDec_ctr (v : Word) : (s.setDec v).ctr = s.ctr := rfl
@[simp] theorem State.setDec_tb (v : Word) : (s.setDec v).tb = s.tb := rfl
@[simp] theorem State.setDec_msr (v : Word) : (s.setDec v).msr = s.msr := rfl
@[simp] theorem State.setDec_dsisr (v : Word) : (s.setDec v).dsisr = s.dsisr := rfl
@[simp] theorem State.setDec_dar (v : Word) : (s.setDec v).dar = s.dar := rfl
@[simp] theorem State.setDec_dec (v : Word) : (s.setDec v).dec = v := rfl
@[simp] theorem State.setDec_srr0 (v : Word) : (s.setDec v).srr0 = s.srr0 := rfl
@[simp] theorem State.setDec_srr1 (v : Word) : (s.setDec v).srr1 = s.srr1 := rfl
@[simp] theorem State.setDec_sprg (v : Word) : (s.setDec v).sprg = s.sprg := rfl
@[simp] theorem State.setDec_pvr (v : Word) : (s.setDec v).pvr = s.pvr := rfl
@[simp] theorem State.setDec_unspecified (v : Word) : (s.setDec v).unspecified = s.unspecified := rfl
@[simp] theorem State.setDec_pc (v : Word) : (s.setDec v).pc = s.pc := rfl
@[simp] theorem State.setDec_decReq (v : Word) : (s.setDec v).decReq = (s.decReq || (!getBit s.dec 0 && getBit v 0)) := rfl
@[simp] theorem State.setDec_extReq (v : Word) : (s.setDec v).extReq = s.extReq := rfl
@[simp] theorem State.setDec_mem (v : Word) : (s.setDec v).mem = s.mem := rfl
@[simp] theorem State.setDec_par (v : Word) : (s.setDec v).par = s.par := rfl
@[simp] theorem State.setDec_env (v : Word) : (s.setDec v).env = s.env := rfl
@[simp] theorem State.setDec_draws (v : Word) : (s.setDec v).draws = s.draws := rfl
@[simp] theorem State.setDec_gpr (v : Word) (q : Reg) : (s.setDec v).gpr q = s.gpr q := rfl
@[simp] theorem State.setDec_fpr (v : Word) (q : Reg) : (s.setDec v).fpr q = s.fpr q := rfl

/-! State.decTick -/

@[simp] theorem State.decTick_gprs : s.decTick.gprs = s.gprs := rfl
@[simp] theorem State.decTick_fprs : s.decTick.fprs = s.fprs := rfl
@[simp] theorem State.decTick_fpscr : s.decTick.fpscr = s.fpscr := rfl
@[simp] theorem State.decTick_cr : s.decTick.cr = s.cr := rfl
@[simp] theorem State.decTick_xer : s.decTick.xer = s.xer := rfl
@[simp] theorem State.decTick_lr : s.decTick.lr = s.lr := rfl
@[simp] theorem State.decTick_ctr : s.decTick.ctr = s.ctr := rfl
@[simp] theorem State.decTick_tb : s.decTick.tb = s.tb := rfl
@[simp] theorem State.decTick_msr : s.decTick.msr = s.msr := rfl
@[simp] theorem State.decTick_dsisr : s.decTick.dsisr = s.dsisr := rfl
@[simp] theorem State.decTick_dar : s.decTick.dar = s.dar := rfl
@[simp] theorem State.decTick_dec : s.decTick.dec = s.dec - 1#32 := rfl
@[simp] theorem State.decTick_srr0 : s.decTick.srr0 = s.srr0 := rfl
@[simp] theorem State.decTick_srr1 : s.decTick.srr1 = s.srr1 := rfl
@[simp] theorem State.decTick_sprg : s.decTick.sprg = s.sprg := rfl
@[simp] theorem State.decTick_pvr : s.decTick.pvr = s.pvr := rfl
@[simp] theorem State.decTick_unspecified : s.decTick.unspecified = s.unspecified := rfl
@[simp] theorem State.decTick_pc : s.decTick.pc = s.pc := rfl
@[simp] theorem State.decTick_decReq : s.decTick.decReq = (s.decReq || (!getBit s.dec 0 && getBit (s.dec - 1#32) 0)) := rfl
@[simp] theorem State.decTick_extReq : s.decTick.extReq = s.extReq := rfl
@[simp] theorem State.decTick_mem : s.decTick.mem = s.mem := rfl
@[simp] theorem State.decTick_par : s.decTick.par = s.par := rfl
@[simp] theorem State.decTick_env : s.decTick.env = s.env := rfl
@[simp] theorem State.decTick_draws : s.decTick.draws = s.draws := rfl
@[simp] theorem State.decTick_gpr (q : Reg) : s.decTick.gpr q = s.gpr q := rfl
@[simp] theorem State.decTick_fpr (q : Reg) : s.decTick.fpr q = s.fpr q := rfl

/-! enter -/

@[simp] theorem enter_gprs (e : Exc) (a : Word) : (enter e a s).gprs = s.gprs := rfl
@[simp] theorem enter_fprs (e : Exc) (a : Word) : (enter e a s).fprs = s.fprs := rfl
@[simp] theorem enter_fpscr (e : Exc) (a : Word) : (enter e a s).fpscr = s.fpscr := rfl
@[simp] theorem enter_cr (e : Exc) (a : Word) : (enter e a s).cr = s.cr := rfl
@[simp] theorem enter_xer (e : Exc) (a : Word) : (enter e a s).xer = s.xer := rfl
@[simp] theorem enter_lr (e : Exc) (a : Word) : (enter e a s).lr = s.lr := rfl
@[simp] theorem enter_ctr (e : Exc) (a : Word) : (enter e a s).ctr = s.ctr := rfl
@[simp] theorem enter_tb (e : Exc) (a : Word) : (enter e a s).tb = s.tb := rfl
@[simp] theorem enter_msr (e : Exc) (a : Word) : (enter e a s).msr = entryMsr s.msr := rfl
@[simp] theorem enter_dsisr (e : Exc) (a : Word) : (enter e a s).dsisr = s.dsisr := rfl
@[simp] theorem enter_dar (e : Exc) (a : Word) : (enter e a s).dar = s.dar := rfl
@[simp] theorem enter_dec (e : Exc) (a : Word) : (enter e a s).dec = s.dec := rfl
@[simp] theorem enter_srr0 (e : Exc) (a : Word) : (enter e a s).srr0 = a := rfl
@[simp] theorem enter_srr1 (e : Exc) (a : Word) : (enter e a s).srr1 = anyHalf s.draws ++ s.readMsr.extractLsb' 0 16 := rfl
@[simp] theorem enter_sprg (e : Exc) (a : Word) : (enter e a s).sprg = s.sprg := rfl
@[simp] theorem enter_pvr (e : Exc) (a : Word) : (enter e a s).pvr = s.pvr := rfl
@[simp] theorem enter_unspecified (e : Exc) (a : Word) : (enter e a s).unspecified = s.unspecified := rfl
@[simp] theorem enter_pc (e : Exc) (a : Word) : (enter e a s).pc = s.vector e := rfl
@[simp] theorem enter_decReq (e : Exc) (a : Word) : (enter e a s).decReq = (s.decReq && e != .decrementer) := rfl
@[simp] theorem enter_extReq (e : Exc) (a : Word) : (enter e a s).extReq = s.extReq := rfl
@[simp] theorem enter_mem (e : Exc) (a : Word) : (enter e a s).mem = s.mem := rfl
@[simp] theorem enter_par (e : Exc) (a : Word) : (enter e a s).par = s.par := rfl
@[simp] theorem enter_env (e : Exc) (a : Word) : (enter e a s).env = s.env := rfl
@[simp] theorem enter_draws (e : Exc) (a : Word) : (enter e a s).draws = s.draws + 1 := rfl
@[simp] theorem enter_gpr (e : Exc) (a : Word) (q : Reg) : (enter e a s).gpr q = s.gpr q := rfl
@[simp] theorem enter_fpr (e : Exc) (a : Word) (q : Reg) : (enter e a s).fpr q = s.fpr q := rfl

/-! returnFromException -/

@[simp] theorem returnFromException_gprs : (returnFromException s).gprs = s.gprs := rfl
@[simp] theorem returnFromException_fprs : (returnFromException s).fprs = s.fprs := rfl
@[simp] theorem returnFromException_fpscr : (returnFromException s).fpscr = s.fpscr := rfl
@[simp] theorem returnFromException_cr : (returnFromException s).cr = s.cr := rfl
@[simp] theorem returnFromException_xer : (returnFromException s).xer = s.xer := rfl
@[simp] theorem returnFromException_lr : (returnFromException s).lr = s.lr := rfl
@[simp] theorem returnFromException_ctr : (returnFromException s).ctr = s.ctr := rfl
@[simp] theorem returnFromException_tb : (returnFromException s).tb = s.tb := rfl
@[simp] theorem returnFromException_msr : (returnFromException s).msr = (s.msr &&& 0x00010000#32) ||| (s.srr1 &&& 0x0000FF43#32) := rfl
@[simp] theorem returnFromException_dsisr : (returnFromException s).dsisr = s.dsisr := rfl
@[simp] theorem returnFromException_dar : (returnFromException s).dar = s.dar := rfl
@[simp] theorem returnFromException_dec : (returnFromException s).dec = s.dec := rfl
@[simp] theorem returnFromException_srr0 : (returnFromException s).srr0 = s.srr0 := rfl
@[simp] theorem returnFromException_srr1 : (returnFromException s).srr1 = s.srr1 := rfl
@[simp] theorem returnFromException_sprg : (returnFromException s).sprg = s.sprg := rfl
@[simp] theorem returnFromException_pvr : (returnFromException s).pvr = s.pvr := rfl
@[simp] theorem returnFromException_unspecified : (returnFromException s).unspecified = s.unspecified := rfl
@[simp] theorem returnFromException_pc : (returnFromException s).pc = dropLowTwo s.srr0 := rfl
@[simp] theorem returnFromException_decReq : (returnFromException s).decReq = s.decReq := rfl
@[simp] theorem returnFromException_extReq : (returnFromException s).extReq = s.extReq := rfl
@[simp] theorem returnFromException_mem : (returnFromException s).mem = s.mem := rfl
@[simp] theorem returnFromException_par : (returnFromException s).par = s.par := rfl
@[simp] theorem returnFromException_env : (returnFromException s).env = s.env := rfl
@[simp] theorem returnFromException_draws : (returnFromException s).draws = s.draws := rfl
@[simp] theorem returnFromException_gpr (q : Reg) : (returnFromException s).gpr q = s.gpr q := rfl
@[simp] theorem returnFromException_fpr (q : Reg) : (returnFromException s).fpr q = s.fpr q := rfl

/-! assertReset -/

@[simp] theorem assertReset_gprs : (assertReset s).gprs = s.gprs := rfl
@[simp] theorem assertReset_fprs : (assertReset s).fprs = s.fprs := rfl
@[simp] theorem assertReset_fpscr : (assertReset s).fpscr = s.fpscr := rfl
@[simp] theorem assertReset_cr : (assertReset s).cr = s.cr := rfl
@[simp] theorem assertReset_xer : (assertReset s).xer = s.xer := rfl
@[simp] theorem assertReset_lr : (assertReset s).lr = s.lr := rfl
@[simp] theorem assertReset_ctr : (assertReset s).ctr = s.ctr := rfl
@[simp] theorem assertReset_tb : (assertReset s).tb = s.tb := rfl
@[simp] theorem assertReset_msr : (assertReset s).msr = resetMsr s.par := rfl
@[simp] theorem assertReset_dsisr : (assertReset s).dsisr = s.dsisr := rfl
@[simp] theorem assertReset_dar : (assertReset s).dar = s.dar := rfl
@[simp] theorem assertReset_dec : (assertReset s).dec = s.dec := rfl
@[simp] theorem assertReset_srr0 : (assertReset s).srr0 = anyWord s.draws := rfl
@[simp] theorem assertReset_srr1 : (assertReset s).srr1 = anyWord (s.draws + 1) := rfl
@[simp] theorem assertReset_sprg : (assertReset s).sprg = s.sprg := rfl
@[simp] theorem assertReset_pvr : (assertReset s).pvr = s.pvr := rfl
@[simp] theorem assertReset_unspecified : (assertReset s).unspecified = s.unspecified := rfl
@[simp] theorem assertReset_pc : (assertReset s).pc = s.par.resetPc := rfl
@[simp] theorem assertReset_decReq : (assertReset s).decReq = anyBit s.draws := rfl
@[simp] theorem assertReset_extReq : (assertReset s).extReq = s.extReq := rfl
@[simp] theorem assertReset_mem : (assertReset s).mem = s.mem := rfl
@[simp] theorem assertReset_par : (assertReset s).par = s.par := rfl
@[simp] theorem assertReset_env : (assertReset s).env = s.env := rfl
@[simp] theorem assertReset_draws : (assertReset s).draws = s.draws + 2 := rfl
@[simp] theorem assertReset_gpr (q : Reg) : (assertReset s).gpr q = s.gpr q := rfl
@[simp] theorem assertReset_fpr (q : Reg) : (assertReset s).fpr q = s.fpr q := rfl

/-! Registers by number -/

/-- A GPR after a GPR write (R8, R21). -/
theorem State.gpr_setGpr (r q : Reg) (v : Word) : (s.setGpr r v).gpr q = if q = r then v else s.gpr q := by
  simp only [State.gpr, State.setGpr, Vector.get_eq_getElem, Vector.getElem_set, Fin.ext_iff, eq_comm]

@[simp] theorem State.gpr_setGpr_same (r : Reg) (v : Word) : (s.setGpr r v).gpr r = v := by
  rw [State.gpr_setGpr, if_pos rfl]

/-- An FPR after an FPR write (R8, R22). -/
theorem State.fpr_setFpr (r q : Reg) (v : DWord) : (s.setFpr r v).fpr q = if q = r then v else s.fpr q := by
  simp only [State.fpr, State.setFpr, Vector.get_eq_getElem, Vector.getElem_set, Fin.ext_iff, eq_comm]

@[simp] theorem State.fpr_setFpr_same (r : Reg) (v : DWord) : (s.setFpr r v).fpr r = v := by
  rw [State.fpr_setFpr, if_pos rfl]

/-- An SPRG after an SPRG write (R57). -/
theorem State.sprg_setSprg (k q : Fin 4) (v : Word) :
    (s.setSprg k v).sprg.get q = if q = k then v else s.sprg.get q := by
  simp only [State.setSprg, Vector.get_eq_getElem, Vector.getElem_set, Fin.ext_iff, eq_comm]

/-! The halves of the time base -/

/-- The low half of two words side by side. -/
theorem extractLsb'_append_low (a b : Word) : BitVec.extractLsb' 0 32 (a ++ b) = b := by
  refine BitVec.eq_of_getLsbD_eq fun i hi => ?_
  rw [BitVec.getLsbD_extractLsb', BitVec.getLsbD_append]
  simp [hi]

/-- The high half of two words side by side. -/
theorem extractLsb'_append_high (a b : Word) : BitVec.extractLsb' 32 32 (a ++ b) = a := by
  refine BitVec.eq_of_getLsbD_eq fun i hi => ?_
  rw [BitVec.getLsbD_extractLsb', BitVec.getLsbD_append]
  simp [hi]

@[simp] theorem State.tbl_setTbl (v : Word) : (s.setTbl v).tbl = v := extractLsb'_append_low s.tbu v

@[simp] theorem State.tbu_setTbl (v : Word) : (s.setTbl v).tbu = s.tbu := extractLsb'_append_high s.tbu v

@[simp] theorem State.tbu_setTbu (v : Word) : (s.setTbu v).tbu = v := extractLsb'_append_high v s.tbl

@[simp] theorem State.tbl_setTbu (v : Word) : (s.setTbu v).tbl = s.tbl := extractLsb'_append_low v s.tbl

end Sys2Proof.Machine
end

