-- ==== Sys2Proof/Laws/Ops.lean ====
section
/-! SUPPORT. One lemma for each shared operation: all it can do when it answers a next state. -/

namespace Sys2Proof.Machine

open Sys2Proof.Config

theorem andThen_eq_next {α β : Type} {o : Result α} {k : α → Result β} {b : β} :
    andThen o k = .next b ↔ ∃ a, o = .next a ∧ k a = .next b := by
  cases o <;> simp [andThen]

@[simp] theorem andThen_next {α β : Type} (a : α) (k : α → Result β) : andThen (.next a) k = k a := rfl

theorem advance_eq_next {s t : State} :
    advance s = .next t ↔ s.pc ≠ lastWord ∧ t = { s with pc := s.pc + 4#32 } := by
  unfold advance lastWord
  split <;> simp_all [eq_comm]

theorem advance_of_ne {s : State} (h : s.pc ≠ lastWord) : advance s = .next { s with pc := s.pc + 4#32 } :=
  advance_eq_next.mpr ⟨h, rfl⟩

theorem unlessRaised_of_some {i : Instr} {s : State} {e : Exc} {r : Result State} (h : syncException i s = some e) :
    unlessRaised i s r = .next (raise e s) := by
  simp [unlessRaised, h]

theorem unlessRaised_of_none {i : Instr} {s : State} {r : Result State} (h : syncException i s = none) :
    unlessRaised i s r = r := by
  simp [unlessRaised, h]

theorem unlessRaised_eq_next {i : Instr} {s t : State} {r : Result State} :
    unlessRaised i s r = .next t ↔
      (∃ e, syncException i s = some e ∧ t = raise e s) ∨ (syncException i s = none ∧ r = .next t) := by
  cases h : syncException i s <;> simp [unlessRaised, h, eq_comm]

theorem State.memRead_eq_next {s : State} {k : Access} {a : Word} {n : Nat} {vs : List Byte} :
    s.memRead k a n = .next vs ↔
      s.le = false ∧ s.mappedAll k a n = true ∧ vs = Memory.readBytes s.mem a n := by
  unfold State.memRead
  cases s.le <;> cases s.mappedAll k a n <;> simp [eq_comm]

theorem State.memWrite_eq_next {s t : State} {a : Word} {vs : List Byte} :
    s.memWrite a vs = .next t ↔
      s.le = false ∧ s.mappedAll .write a vs.length = true ∧ s.fetchable a vs.length = false ∧
        t = { s with mem := Memory.writeBytes s.mem a vs } := by
  unfold State.memWrite
  cases s.le <;> cases s.mappedAll .write a vs.length <;> cases s.fetchable a vs.length <;> simp [eq_comm]

theorem State.fetch_eq_next {s : State} {i : Instr} :
    s.fetch = .next i ↔
      s.le = false ∧ s.mappedAll .fetch s.pc 4 = true ∧
        ∃ rest, decodeBytes (Memory.readBytes s.mem s.pc 4) = .ok (i, rest) := by
  rw [State.fetch, andThen_eq_next]
  constructor
  · rintro ⟨vs, h, hd⟩
    obtain ⟨hl, hm, rfl⟩ := State.memRead_eq_next.mp h
    refine ⟨hl, hm, ?_⟩
    split at hd
    · rename_i j rest hj
      cases hd
      exact ⟨rest, hj⟩
    · cases hd
  · rintro ⟨hl, hm, rest, hd⟩
    exact ⟨_, State.memRead_eq_next.mpr ⟨hl, hm, rfl⟩, by simp only [hd]⟩

theorem finishFpscr_eq_next {rc : Bool} {s t : State} :
    finishFpscr rc s = .next t ↔
      (fexOf s.fpscr && s.fpPrecise) = false ∧ advance (if rc then s.recordCr1 else s) = .next t := by
  unfold finishFpscr
  cases fexOf s.fpscr && s.fpPrecise <;> simp

theorem finishBranch_eq_next {lk taken : Bool} {target : Word} {s t : State} :
    finishBranch lk taken target s = .next t ↔
      (taken = true ∨ s.pc ≠ lastWord) ∧
        t = { s with
              lr := if lk then s.pc + 4#32 else s.lr
              pc := if taken then target else s.pc + 4#32 } := by
  have e : ∀ a b : State, (Host.Outcome.next a : Result State) = .next b ↔ b = a := fun a b => by
    rw [Host.Outcome.next.injEq, eq_comm]
  cases lk <;> cases taken <;> simp [finishBranch, advance_eq_next, e]

/-- What fixing FX does (R203): the FPSCR is `f` but for FX, and only the count of free draws may move. -/
theorem State.setFpscrImplicitFx_cases (s : State) (f : Word) :
    (s.setFpscrImplicitFx f = { s with fpscr := f }) ∨
    (fpRise s.fpscr f = true ∧ getBit f 0 = false ∧
      ((s.par.fxOnMtfsf = .literal ∧ s.setFpscrImplicitFx f = { s with fpscr := putBit f 0 true }) ∨
       (s.par.fxOnMtfsf = .any ∧
         s.setFpscrImplicitFx f = { s with fpscr := putBit f 0 (anyBit s.draws), draws := s.draws + 1 }))) := by
  unfold State.setFpscrImplicitFx
  split
  · rename_i h
    simp only [Bool.and_eq_true, Bool.not_eq_true'] at h
    split <;> simp_all
  · exact .inl rfl

theorem execTraced_eq_next {i : Instr} {s u : State} :
    execTraced i s = .next u ↔
      ∃ t, exec i s = .next t ∧ u = if traceApplies i s then enter .trace t.pc t else t := by
  rw [execTraced, andThen_eq_next]
  refine exists_congr fun t => and_congr_right fun _ => ?_
  rw [Host.Outcome.next.injEq, eq_comm]

/-- The core's step (R300). -/
theorem coreStep_eq_next {s t : State} :
    coreStep s = .next t ↔
      (s.ee = true ∧ s.extReq = true ∧ t = enter .external s.pc s) ∨
      (s.ee = true ∧ s.extReq = false ∧ s.decReq = true ∧ t = enter .decrementer s.pc s) ∨
      (NoInterrupt s ∧ ∃ i, s.fetch = .next i ∧ execTraced i s = .next t) := by
  have hf : s.le = true → ∀ i, s.fetch ≠ .next i := fun hl i h => by
    rw [(State.fetch_eq_next.mp h).1] at hl
    exact Bool.false_ne_true hl
  have e : ∀ a b : State, (Host.Outcome.next a : Result State) = .next b ↔ b = a := fun a b => by
    rw [Host.Outcome.next.injEq, eq_comm]
  unfold coreStep NoInterrupt
  cases he : s.ee <;> cases hx : s.extReq <;> cases hd : s.decReq <;> cases hl : s.le <;>
    simp_all [andThen_eq_next]

/-- One step of the machine (R6): the core, or one of the other agents. -/
theorem step_eq_next {s t : State} :
    step s = .next t ↔
      (s.env = [] ∧ coreStep s = .next t) ∨
      (∃ rest, s.env = .core :: rest ∧ coreStep { s with env := rest } = .next t) ∨
      (∃ rest, s.env = .tbTick :: rest ∧ t = { s with env := rest }.tbTick) ∨
      (∃ rest, s.env = .decTick :: rest ∧ t = { s with env := rest }.decTick) ∨
      (∃ b rest, s.env = .extIrq b :: rest ∧ t = { s with env := rest, extReq := b }) ∨
      (∃ rest, s.env = .reset :: rest ∧ t = assertReset { s with env := rest }) := by
  unfold step cycle
  rcases h : s.env with _ | ⟨e, rest⟩
  · simp
  · have e' : ∀ a b : State, (Host.Outcome.next a : Result State) = .next b ↔ b = a := fun a b => by
      rw [Host.Outcome.next.injEq, eq_comm]
    cases e <;> simp [e']

/-- What mfspr reads where it reads (R62). -/
theorem readSpr_eq_next {n : Nat} {s : State} {v : Word} (h : readSpr n s = .next v) :
    (n = 1 ∧ v = s.readXer) ∨ (n = 8 ∧ v = s.lr) ∨ (n = 9 ∧ v = s.ctr) ∨ (n = 18 ∧ v = s.dsisr) ∨
    (n = 19 ∧ v = s.dar) ∨ (n = 22 ∧ v = s.dec) ∨ (n = 26 ∧ v = s.srr0) ∨ (n = 27 ∧ v = s.srr1) ∨
    (∃ k : Fin 4, n = 272 + k.val ∧ v = s.sprg.get k) ∨ (n = 287 ∧ v = s.pvr) := by
  unfold readSpr at h
  split at h
  case h_14 => split at h <;> cases h
  all_goals cases h
  case h_9 => exact .inr (.inr (.inr (.inr (.inr (.inr (.inr (.inr (.inl ⟨0, rfl, rfl⟩))))))))
  case h_10 => exact .inr (.inr (.inr (.inr (.inr (.inr (.inr (.inr (.inl ⟨1, rfl, rfl⟩))))))))
  case h_11 => exact .inr (.inr (.inr (.inr (.inr (.inr (.inr (.inr (.inl ⟨2, rfl, rfl⟩))))))))
  case h_12 => exact .inr (.inr (.inr (.inr (.inr (.inr (.inr (.inr (.inl ⟨3, rfl, rfl⟩))))))))
  all_goals simp

/-- What mtspr writes where it writes (R62). -/
theorem writeSpr_eq_next {n : Nat} {v : Word} {s t : State} (h : writeSpr n v s = .next t) :
    (n = 1 ∧ t = s.setXer v) ∨ (n = 8 ∧ t = { s with lr := v }) ∨ (n = 9 ∧ t = { s with ctr := v }) ∨
    (n = 18 ∧ t = { s with dsisr := v }) ∨ (n = 19 ∧ t = { s with dar := v }) ∨ (n = 22 ∧ t = s.setDec v) ∨
    (n = 26 ∧ t = { s with srr0 := v }) ∨ (n = 27 ∧ t = { s with srr1 := v }) ∨
    (n = 80 ∧ t = s.setEeRi true true) ∨ (n = 81 ∧ t = s.setEeRi false true) ∨
    (n = 82 ∧ t = s.setEeRi false false) ∨ (∃ k : Fin 4, n = 272 + k.val ∧ t = s.setSprg k v) ∨
    (n = 284 ∧ t = s.setTbl v) ∨ (n = 285 ∧ t = s.setTbu v) := by
  unfold writeSpr at h
  split at h
  case h_19 => split at h <;> cases h
  all_goals cases h
  case h_12 => exact .inr (.inr (.inr (.inr (.inr (.inr (.inr (.inr (.inr (.inr (.inr (.inl ⟨0, rfl, rfl⟩)))))))))))
  case h_13 => exact .inr (.inr (.inr (.inr (.inr (.inr (.inr (.inr (.inr (.inr (.inr (.inl ⟨1, rfl, rfl⟩)))))))))))
  case h_14 => exact .inr (.inr (.inr (.inr (.inr (.inr (.inr (.inr (.inr (.inr (.inr (.inl ⟨2, rfl, rfl⟩)))))))))))
  case h_15 => exact .inr (.inr (.inr (.inr (.inr (.inr (.inr (.inr (.inr (.inr (.inr (.inl ⟨3, rfl, rfl⟩)))))))))))
  all_goals simp

/-- What mftb reads where it reads (R220). -/
theorem readTb_eq_next {n : Nat} {s : State} {v : Word} (h : readTb n s = .next v) :
    (n = 268 ∧ v = s.tbl) ∨ (n = 269 ∧ v = s.tbu) := by
  unfold readTb at h
  split at h <;> cases h <;> simp

end Sys2Proof.Machine
end

