-- ==== Sys2Proof/Laws/PerInstr.lean ====
section
/-! SUPPORT. The family EncodedOpcode: every instruction's word carries, in its bits 0 to 5, the primary opcode of its row of
R142, whatever its operands. -/

namespace Sys2Proof.Laws

/-- The primary opcode of the word is that of the instruction's row (R131, R142). -/
def EncodedOpcode.Statement (i : Instr) : Prop := fld (encode i) 0 5 = fld (rowOf i).matchBits 0 5

/-- A bit as a number. -/
theorem bool_toNat_lt (b : Bool) : b.toNat < 2 := by cases b <;> decide

/-- A word below 2^32 read as opcode and the rest. -/
theorem fld_opcode {w op : Nat} (h1 : op * 67108864 ≤ w) (h2 : w < (op + 1) * 67108864) (h3 : op < 64) :
    fld (BitVec.ofNat 32 w) 0 5 = op := by
  simp only [fld, BitVec.toNat_ofNat]
  omega

/-- The primary opcode of the row at a position of the map. -/
theorem opcode_at {j : Instr} {i : Fin 39} {op : Nat} (h : rowIndex j = i)
    (ho : op = fld ((opcodeMap.get i).matchBits) 0 5) : op = fld (rowOf j).matchBits 0 5 := by
  rw [ho, rowOf, h]

theorem EncodedOpcode.cmpli (crfD : FieldNo) (rA : Reg) (uimm : Nat) :
    EncodedOpcode.Statement (.cmpli crfD rA uimm) := by
  have h0 := crfD.isLt
  have h1 := rA.isLt
  refine (fld_opcode (op := 10) ?_ ?_ (by decide)).trans (opcode_at (i := 0) rfl (by decide)) <;>
    simp only [encodeNat, formD, ins] <;> omega

theorem EncodedOpcode.cmpi (crfD : FieldNo) (rA : Reg) (simm : Int) :
    EncodedOpcode.Statement (.cmpi crfD rA simm) := by
  have h0 := crfD.isLt
  have h1 := rA.isLt
  refine (fld_opcode (op := 11) ?_ ?_ (by decide)).trans (opcode_at (i := 1) rfl (by decide)) <;>
    simp only [encodeNat, formD, ins, signField] <;> omega

theorem EncodedOpcode.addicDot (rD : Reg) (rA : Reg) (simm : Int) :
    EncodedOpcode.Statement (.addicDot rD rA simm) := by
  have h0 := rD.isLt
  have h1 := rA.isLt
  refine (fld_opcode (op := 13) ?_ ?_ (by decide)).trans (opcode_at (i := 2) rfl (by decide)) <;>
    simp only [encodeNat, formD, ins, signField] <;> omega

theorem EncodedOpcode.addi (rD : Reg) (rA : Reg) (simm : Int) :
    EncodedOpcode.Statement (.addi rD rA simm) := by
  have h0 := rD.isLt
  have h1 := rA.isLt
  refine (fld_opcode (op := 14) ?_ ?_ (by decide)).trans (opcode_at (i := 3) rfl (by decide)) <;>
    simp only [encodeNat, formD, ins, signField] <;> omega

theorem EncodedOpcode.bc (bo : BitVec 5) (bi : BitNo) (disp : Int) (aa : Bool) (lk : Bool) :
    EncodedOpcode.Statement (.bc bo bi disp aa lk) := by
  have h0 := bo.isLt
  have h1 := bi.isLt
  have h2 := bool_toNat_lt aa
  have h3 := bool_toNat_lt lk
  refine (fld_opcode (op := 16) ?_ ?_ (by decide)).trans (opcode_at (i := 4) rfl (by decide)) <;>
    simp only [encodeNat, ins, signField] <;> omega

theorem EncodedOpcode.sc : EncodedOpcode.Statement (.sc) := by
  rfl

theorem EncodedOpcode.b (disp : Int) (aa : Bool) (lk : Bool) :
    EncodedOpcode.Statement (.b disp aa lk) := by
  have h0 := bool_toNat_lt aa
  have h1 := bool_toNat_lt lk
  refine (fld_opcode (op := 18) ?_ ?_ (by decide)).trans (opcode_at (i := 6) rfl (by decide)) <;>
    simp only [encodeNat, ins, signField] <;> omega

theorem EncodedOpcode.mcrf (crfD : FieldNo) (crfS : FieldNo) :
    EncodedOpcode.Statement (.mcrf crfD crfS) := by
  have h0 := crfD.isLt
  have h1 := crfS.isLt
  refine (fld_opcode (op := 19) ?_ ?_ (by decide)).trans (opcode_at (i := 7) rfl (by decide)) <;>
    simp only [encodeNat, formX, ins] <;> omega

theorem EncodedOpcode.bclr (bo : BitVec 5) (bi : BitNo) (lk : Bool) :
    EncodedOpcode.Statement (.bclr bo bi lk) := by
  have h0 := bo.isLt
  have h1 := bi.isLt
  have h2 := bool_toNat_lt lk
  refine (fld_opcode (op := 19) ?_ ?_ (by decide)).trans (opcode_at (i := 8) rfl (by decide)) <;>
    simp only [encodeNat, formX, ins] <;> omega

theorem EncodedOpcode.crnor (a : BitNo) (b : BitNo) (c : BitNo) :
    EncodedOpcode.Statement (.crnor a b c) := by
  have h0 := a.isLt
  have h1 := b.isLt
  have h2 := c.isLt
  refine (fld_opcode (op := 19) ?_ ?_ (by decide)).trans (opcode_at (i := 9) rfl (by decide)) <;>
    simp only [encodeNat, formX, ins] <;> omega

theorem EncodedOpcode.rfi : EncodedOpcode.Statement (.rfi) := by
  rfl

theorem EncodedOpcode.crandc (a : BitNo) (b : BitNo) (c : BitNo) :
    EncodedOpcode.Statement (.crandc a b c) := by
  have h0 := a.isLt
  have h1 := b.isLt
  have h2 := c.isLt
  refine (fld_opcode (op := 19) ?_ ?_ (by decide)).trans (opcode_at (i := 11) rfl (by decide)) <;>
    simp only [encodeNat, formX, ins] <;> omega

theorem EncodedOpcode.crxor (a : BitNo) (b : BitNo) (c : BitNo) :
    EncodedOpcode.Statement (.crxor a b c) := by
  have h0 := a.isLt
  have h1 := b.isLt
  have h2 := c.isLt
  refine (fld_opcode (op := 19) ?_ ?_ (by decide)).trans (opcode_at (i := 12) rfl (by decide)) <;>
    simp only [encodeNat, formX, ins] <;> omega

theorem EncodedOpcode.crnand (a : BitNo) (b : BitNo) (c : BitNo) :
    EncodedOpcode.Statement (.crnand a b c) := by
  have h0 := a.isLt
  have h1 := b.isLt
  have h2 := c.isLt
  refine (fld_opcode (op := 19) ?_ ?_ (by decide)).trans (opcode_at (i := 13) rfl (by decide)) <;>
    simp only [encodeNat, formX, ins] <;> omega

theorem EncodedOpcode.crand (a : BitNo) (b : BitNo) (c : BitNo) :
    EncodedOpcode.Statement (.crand a b c) := by
  have h0 := a.isLt
  have h1 := b.isLt
  have h2 := c.isLt
  refine (fld_opcode (op := 19) ?_ ?_ (by decide)).trans (opcode_at (i := 14) rfl (by decide)) <;>
    simp only [encodeNat, formX, ins] <;> omega

theorem EncodedOpcode.creqv (a : BitNo) (b : BitNo) (c : BitNo) :
    EncodedOpcode.Statement (.creqv a b c) := by
  have h0 := a.isLt
  have h1 := b.isLt
  have h2 := c.isLt
  refine (fld_opcode (op := 19) ?_ ?_ (by decide)).trans (opcode_at (i := 15) rfl (by decide)) <;>
    simp only [encodeNat, formX, ins] <;> omega

theorem EncodedOpcode.crorc (a : BitNo) (b : BitNo) (c : BitNo) :
    EncodedOpcode.Statement (.crorc a b c) := by
  have h0 := a.isLt
  have h1 := b.isLt
  have h2 := c.isLt
  refine (fld_opcode (op := 19) ?_ ?_ (by decide)).trans (opcode_at (i := 16) rfl (by decide)) <;>
    simp only [encodeNat, formX, ins] <;> omega

theorem EncodedOpcode.cror (a : BitNo) (b : BitNo) (c : BitNo) :
    EncodedOpcode.Statement (.cror a b c) := by
  have h0 := a.isLt
  have h1 := b.isLt
  have h2 := c.isLt
  refine (fld_opcode (op := 19) ?_ ?_ (by decide)).trans (opcode_at (i := 17) rfl (by decide)) <;>
    simp only [encodeNat, formX, ins] <;> omega

theorem EncodedOpcode.bcctr (bo : BitVec 5) (bi : BitNo) (lk : Bool) :
    EncodedOpcode.Statement (.bcctr bo bi lk) := by
  have h0 := bo.isLt
  have h1 := bi.isLt
  have h2 := bool_toNat_lt lk
  refine (fld_opcode (op := 19) ?_ ?_ (by decide)).trans (opcode_at (i := 18) rfl (by decide)) <;>
    simp only [encodeNat, formX, ins] <;> omega

theorem EncodedOpcode.andiDot (rA : Reg) (rS : Reg) (uimm : Nat) :
    EncodedOpcode.Statement (.andiDot rA rS uimm) := by
  have h0 := rA.isLt
  have h1 := rS.isLt
  refine (fld_opcode (op := 28) ?_ ?_ (by decide)).trans (opcode_at (i := 19) rfl (by decide)) <;>
    simp only [encodeNat, formD, ins] <;> omega

theorem EncodedOpcode.andisDot (rA : Reg) (rS : Reg) (uimm : Nat) :
    EncodedOpcode.Statement (.andisDot rA rS uimm) := by
  have h0 := rA.isLt
  have h1 := rS.isLt
  refine (fld_opcode (op := 29) ?_ ?_ (by decide)).trans (opcode_at (i := 20) rfl (by decide)) <;>
    simp only [encodeNat, formD, ins] <;> omega

theorem EncodedOpcode.cmp (crfD : FieldNo) (rA : Reg) (rB : Reg) :
    EncodedOpcode.Statement (.cmp crfD rA rB) := by
  have h0 := crfD.isLt
  have h1 := rA.isLt
  have h2 := rB.isLt
  refine (fld_opcode (op := 31) ?_ ?_ (by decide)).trans (opcode_at (i := 21) rfl (by decide)) <;>
    simp only [encodeNat, formX, ins] <;> omega

theorem EncodedOpcode.subfc (rD : Reg) (rA : Reg) (rB : Reg) (oe : Bool) (rc : Bool) :
    EncodedOpcode.Statement (.subfc rD rA rB oe rc) := by
  have h0 := rD.isLt
  have h1 := rA.isLt
  have h2 := rB.isLt
  have h3 := bool_toNat_lt oe
  have h4 := bool_toNat_lt rc
  refine (fld_opcode (op := 31) ?_ ?_ (by decide)).trans (opcode_at (i := 22) rfl (by decide)) <;>
    simp only [encodeNat, formX, ins] <;> omega

theorem EncodedOpcode.mfcr (rD : Reg) :
    EncodedOpcode.Statement (.mfcr rD) := by
  have h0 := rD.isLt
  refine (fld_opcode (op := 31) ?_ ?_ (by decide)).trans (opcode_at (i := 23) rfl (by decide)) <;>
    simp only [encodeNat, formX, ins] <;> omega

theorem EncodedOpcode.cmpl (crfD : FieldNo) (rA : Reg) (rB : Reg) :
    EncodedOpcode.Statement (.cmpl crfD rA rB) := by
  have h0 := crfD.isLt
  have h1 := rA.isLt
  have h2 := rB.isLt
  refine (fld_opcode (op := 31) ?_ ?_ (by decide)).trans (opcode_at (i := 24) rfl (by decide)) <;>
    simp only [encodeNat, formX, ins] <;> omega

theorem EncodedOpcode.mfmsr (rD : Reg) :
    EncodedOpcode.Statement (.mfmsr rD) := by
  have h0 := rD.isLt
  refine (fld_opcode (op := 31) ?_ ?_ (by decide)).trans (opcode_at (i := 25) rfl (by decide)) <;>
    simp only [encodeNat, formX, ins] <;> omega

theorem EncodedOpcode.mtcrf (crm : BitVec 8) (rS : Reg) :
    EncodedOpcode.Statement (.mtcrf crm rS) := by
  have h0 := crm.isLt
  have h1 := rS.isLt
  refine (fld_opcode (op := 31) ?_ ?_ (by decide)).trans (opcode_at (i := 26) rfl (by decide)) <;>
    simp only [encodeNat, ins] <;> omega

theorem EncodedOpcode.mtmsr (rS : Reg) :
    EncodedOpcode.Statement (.mtmsr rS) := by
  have h0 := rS.isLt
  refine (fld_opcode (op := 31) ?_ ?_ (by decide)).trans (opcode_at (i := 27) rfl (by decide)) <;>
    simp only [encodeNat, formX, ins] <;> omega

theorem EncodedOpcode.mfspr (rD : Reg) (n : Nat) :
    EncodedOpcode.Statement (.mfspr rD n) := by
  have h0 := rD.isLt
  refine (fld_opcode (op := 31) ?_ ?_ (by decide)).trans (opcode_at (i := 28) rfl (by decide)) <;>
    simp only [encodeNat, formSpr, formX, ins] <;> omega

theorem EncodedOpcode.mftb (rD : Reg) (n : Nat) :
    EncodedOpcode.Statement (.mftb rD n) := by
  have h0 := rD.isLt
  refine (fld_opcode (op := 31) ?_ ?_ (by decide)).trans (opcode_at (i := 29) rfl (by decide)) <;>
    simp only [encodeNat, formSpr, formX, ins] <;> omega

theorem EncodedOpcode.mtspr (n : Nat) (rS : Reg) :
    EncodedOpcode.Statement (.mtspr n rS) := by
  have h0 := rS.isLt
  refine (fld_opcode (op := 31) ?_ ?_ (by decide)).trans (opcode_at (i := 30) rfl (by decide)) <;>
    simp only [encodeNat, formSpr, formX, ins] <;> omega

theorem EncodedOpcode.mcrxr (crfD : FieldNo) :
    EncodedOpcode.Statement (.mcrxr crfD) := by
  have h0 := crfD.isLt
  refine (fld_opcode (op := 31) ?_ ?_ (by decide)).trans (opcode_at (i := 31) rfl (by decide)) <;>
    simp only [encodeNat, formX, ins] <;> omega

theorem EncodedOpcode.lwz (rD : Reg) (rA : Reg) (d : Int) :
    EncodedOpcode.Statement (.lwz rD rA d) := by
  have h0 := rD.isLt
  have h1 := rA.isLt
  refine (fld_opcode (op := 32) ?_ ?_ (by decide)).trans (opcode_at (i := 32) rfl (by decide)) <;>
    simp only [encodeNat, formD, ins, signField] <;> omega

theorem EncodedOpcode.mtfsb1 (crbD : BitNo) (rc : Bool) :
    EncodedOpcode.Statement (.mtfsb1 crbD rc) := by
  have h0 := crbD.isLt
  have h1 := bool_toNat_lt rc
  refine (fld_opcode (op := 63) ?_ ?_ (by decide)).trans (opcode_at (i := 33) rfl (by decide)) <;>
    simp only [encodeNat, formX, ins] <;> omega

theorem EncodedOpcode.mcrfs (crfD : FieldNo) (crfS : FieldNo) :
    EncodedOpcode.Statement (.mcrfs crfD crfS) := by
  have h0 := crfD.isLt
  have h1 := crfS.isLt
  refine (fld_opcode (op := 63) ?_ ?_ (by decide)).trans (opcode_at (i := 34) rfl (by decide)) <;>
    simp only [encodeNat, formX, ins] <;> omega

theorem EncodedOpcode.mtfsb0 (crbD : BitNo) (rc : Bool) :
    EncodedOpcode.Statement (.mtfsb0 crbD rc) := by
  have h0 := crbD.isLt
  have h1 := bool_toNat_lt rc
  refine (fld_opcode (op := 63) ?_ ?_ (by decide)).trans (opcode_at (i := 35) rfl (by decide)) <;>
    simp only [encodeNat, formX, ins] <;> omega

theorem EncodedOpcode.mtfsfi (crfD : FieldNo) (imm : BitVec 4) (rc : Bool) :
    EncodedOpcode.Statement (.mtfsfi crfD imm rc) := by
  have h0 := crfD.isLt
  have h1 := imm.isLt
  have h2 := bool_toNat_lt rc
  refine (fld_opcode (op := 63) ?_ ?_ (by decide)).trans (opcode_at (i := 36) rfl (by decide)) <;>
    simp only [encodeNat, formX, ins] <;> omega

theorem EncodedOpcode.mffs (frD : Reg) (rc : Bool) :
    EncodedOpcode.Statement (.mffs frD rc) := by
  have h0 := frD.isLt
  have h1 := bool_toNat_lt rc
  refine (fld_opcode (op := 63) ?_ ?_ (by decide)).trans (opcode_at (i := 37) rfl (by decide)) <;>
    simp only [encodeNat, formX, ins] <;> omega

theorem EncodedOpcode.mtfsf (fm : BitVec 8) (frB : Reg) (rc : Bool) :
    EncodedOpcode.Statement (.mtfsf fm frB rc) := by
  have h0 := fm.isLt
  have h1 := frB.isLt
  have h2 := bool_toNat_lt rc
  refine (fld_opcode (op := 63) ?_ ?_ (by decide)).trans (opcode_at (i := 38) rfl (by decide)) <;>
    simp only [encodeNat, ins] <;> omega

end Sys2Proof.Laws
end

