-- ==== Sys2Proof/Tests/Slice0.lean ====
section
/-! SUPPORT. Tests: ill-formed terms refused, words of the spec decoded, one step of each instruction against the vectors of
95_test_vectors.md (named by their ids), and for each statement of Certificates/Slice0 a state that meets its hypotheses. -/

namespace Sys2Proof.Tests

open Sys2Proof.Config Sys2Proof.Machine

/-! ### Helpers -/

/-- A state at supervisor level with MSR[FP] = 1, pc 0x2000. -/
def base : State := { State.reset with pc := 0x00002000#32, msr := 0x00002000#32 }

/-- `base` at user level. -/
def user : State := { base with msr := 0x00006000#32 }

/-- `base` at the last word of memory. -/
def last : State := { base with pc := 0xFFFFFFFC#32 }

/-- `s` with the word `w` at its pc, and no schedule. -/
def holding (w : Nat) (s : State) : State := s.withFetchWord 32 w

/-- The next state of an outcome. -/
def next? (o : Result State) : Option State :=
  match o with
  | .next t => some t
  | _ => none

/-- The reason of a refusal. -/
def why? (o : Result State) : Option Refusal :=
  match o with
  | .refused r => some r
  | _ => none

/-- What `f` reads in the state that `i` leaves from `s`. -/
def after {α : Type} (i : Instr) (s : State) (f : State → α) : Option α := (next? (exec i s)).map f

/-! ### Well-formedness: each check refuses an ill-formed term -/

theorem test_wf_simm : Instr.wellFormed (.addi 1 1 (-32769)) = false ∧ Instr.wellFormed (.cmpi 1 1 32768) = false ∧
    Instr.wellFormed (.addicDot 1 1 40000) = false ∧ Instr.wellFormed (.lwz 1 1 (-40000)) = false := by decide

theorem test_wf_uimm : Instr.wellFormed (.cmpli 1 1 65536) = false ∧ Instr.wellFormed (.andiDot 1 1 65536) = false ∧
    Instr.wellFormed (.andisDot 1 1 65536) = false := by decide

theorem test_wf_spr : Instr.wellFormed (.mfspr 1 1024) = false ∧ Instr.wellFormed (.mftb 1 1024) = false ∧
    Instr.wellFormed (.mtspr 1024 1) = false := by decide

theorem test_wf_bd : Instr.wellFormed (.bc 20#5 0 32768 false false) = false ∧
    Instr.wellFormed (.bc 20#5 0 (-32772) false false) = false ∧ Instr.wellFormed (.bc 20#5 0 6 false false) = false := by decide

theorem test_wf_li : Instr.wellFormed (.b 33554432 false false) = false ∧
    Instr.wellFormed (.b (-33554436) false false) = false ∧ Instr.wellFormed (.b 2 false false) = false := by decide

/-! ### Decoding: a word of the spec for each row -/

theorem test_decode_spr_moves : decode 0x7C6802A6#32 = some (.mfspr 3 8) ∧ decode 0x7C1013A6#32 = some (.mtspr 80 0) ∧
    decode 0x7C6D42E6#32 = some (.mftb 3 269) ∧ decode 0x7C7F42A6#32 = some (.mfspr 3 287) := by decide

theorem test_decode_cr_moves : decode 0x7CA00026#32 = some (.mfcr 5) ∧ decode 0x7C681120#32 = some (.mtcrf 0x81#8 3) ∧
    decode 0x4C1C0000#32 = some (.mcrf 0 7) ∧ decode 0x7D000400#32 = some (.mcrxr 2) := by decide

theorem test_decode_cr_logic : decode 0x4C011202#32 = some (.crand 0 1 2) ∧ decode 0x4FE00B82#32 = some (.cror 31 0 1) ∧
    decode 0x4CC63182#32 = some (.crxor 6 6 6) ∧ decode 0x4C0111C2#32 = some (.crnand 0 1 2) ∧
    decode 0x4C011042#32 = some (.crnor 0 1 2) ∧ decode 0x4CC63242#32 = some (.creqv 6 6 6) ∧
    decode 0x4C011102#32 = some (.crandc 0 1 2) ∧ decode 0x4C011342#32 = some (.crorc 0 1 2) := by decide

theorem test_decode_fpscr : decode 0xFD140080#32 = some (.mcrfs 2 5) ∧ decode 0xFD000D8F#32 = some (.mtfsf 0x80#8 1 true) ∧
    decode 0xFF00810D#32 = some (.mtfsfi 6 8#4 true) ∧ decode 0xFF00008C#32 = some (.mtfsb0 24 false) ∧
    decode 0xFEA0004D#32 = some (.mtfsb1 21 true) ∧ decode 0xFFE0048F#32 = some (.mffs 31 true) := by decide

theorem test_decode_system : decode 0x7C6000A6#32 = some (.mfmsr 3) ∧ decode 0x7C600124#32 = some (.mtmsr 3) ∧
    decode 0x44000002#32 = some .sc ∧ decode 0x4C000064#32 = some .rfi := by decide

theorem test_decode_branches : decode 0x4BFFFFF9#32 = some (.b (-8) false true) ∧
    decode 0x48002002#32 = some (.b 0x2000 true false) ∧ decode 0x4082FFF4#32 = some (.bc 4#5 2 (-12) false false) ∧
    decode 0x429F0005#32 = some (.bc 20#5 31 4 false true) ∧ decode 0x4D820020#32 = some (.bclr 12#5 2 false) ∧
    decode 0x4E800421#32 = some (.bcctr 20#5 0 true) := by decide

theorem test_decode_integer : decode 0x7C843000#32 = some (.cmp 1 4 6) ∧ decode 0x7C032040#32 = some (.cmpl 0 3 4) ∧
    decode 0x2F830005#32 = some (.cmpi 7 3 5) ∧ decode 0x29030001#32 = some (.cmpli 2 3 1) ∧
    decode 0x3860FFFF#32 = some (.addi 3 0 (-1)) ∧ decode 0x34A40001#32 = some (.addicDot 5 4 1) ∧
    decode 0x708300FF#32 = some (.andiDot 3 4 255) ∧ decode 0x74838000#32 = some (.andisDot 3 4 0x8000) ∧
    decode 0x7C642C11#32 = some (.subfc 3 4 5 true true) ∧ decode 0x7C642810#32 = some (.subfc 3 4 5 false false) ∧
    decode 0x80640008#32 = some (.lwz 3 4 8) := by decide

/-- E-1 to E-7: words in no row, reserved bits set among them. -/
theorem test_decode_rejects : decode 0x00000000#32 = none ∧ decode 0x60000000#32 = none ∧ decode 0x7C0004AC#32 = none ∧
    decode 0x4C00012C#32 = none ∧ decode 0x7C6000A7#32 = none ∧ decode 0x44000000#32 = none ∧
    decode 0x2C230000#32 = none := by decide

theorem test_decode_table_word : decodeTableWord 32 0x7C6802A6 = some (.mfspr 3 8) ∧ decodeTableWord 32 0 = none := by decide

/-- No two rows of R142 have a word in common. -/
theorem test_rows_disjoint : ∀ a ∈ opcodeMap, ∀ b ∈ opcodeMap,
    a = b ∨ a.mask &&& b.mask &&& (a.matchBits ^^^ b.matchBits) ≠ 0#32 := by decide

/-! ### One step of each instruction, expected values from 95_test_vectors.md -/

/-- A-5, A-6. -/
theorem test_mtspr_mfspr_xer : after (.mtspr 1 4) (base.setGpr 4 0xFFFFFFFF#32) (·.xer) = some 0xE000FF7F#32 ∧
    after (.mfspr 3 1) { base with xer := 0xE000FF7F#32 } (·.gpr 3) = some 0xE000FF7F#32 := by decide

/-- V-14 to V-16. -/
theorem test_mtspr_eie : after (.mtspr 80 0) { base with msr := 0x1000#32 } (·.msr) = some 0x9002#32 ∧
    after (.mtspr 81 0) { base with msr := 0x9002#32 } (·.msr) = some 0x1002#32 ∧
    after (.mtspr 82 0) { base with msr := 0x1002#32 } (·.msr) = some 0x1000#32 := by decide

/-- V-18, V-19. -/
theorem test_mfspr_eie : after (.mfspr 3 80) { base with msr := 0x1002#32 } (fun t => (t.srr0, t.msr, t.pc)) =
      some (0x2000#32, 0x1000#32, 0x1000#32) ∧
    after (.mfspr 3 80) user (·.pc) = some 0x700#32 := by decide

/-- T-9, T-11. -/
theorem test_mtdec : after (.mtspr 22 3) { base.setGpr 3 0x80000000#32 with dec := 0x10#32 } (fun t => (t.dec, t.decReq)) =
      some (0x80000000#32, true) ∧
    after (.mtspr 22 3) { base.setGpr 3 0x100#32 with dec := 0xFFFFFFF0#32, decReq := true } (fun t => (t.dec, t.decReq)) =
      some (0x100#32, true) := by decide

/-- T-4, T-5. -/
theorem test_mttb : after (.mtspr 284 5) { base with tb := 0x123456789ABCDEF0#64 } (·.tb) = some 0x1234567800000000#64 ∧
    after (.mtspr 285 3) { base.setGpr 3 0x12#32 with tb := 0x1234567800000003#64 } (·.tb) = some 0x0000001200000003#64 := by
  decide

/-- T-1, T-2, at user level (T-3). -/
theorem test_mftb : after (.mftb 3 268) { user with tb := 0x00000001FFFFFFF0#64 } (·.gpr 3) = some 0xFFFFFFF0#32 ∧
    after (.mftb 3 269) { user with tb := 0x00000001FFFFFFF0#64 } (·.gpr 3) = some 1#32 := by decide

/-- A-11. -/
theorem test_mfcr : after (.mfcr 3) { base with cr := 0x20000008#32 } (·.gpr 3) = some 0x20000008#32 := by decide

/-- A-15. -/
theorem test_mtcrf : after (.mtcrf 0x81#8 3) { base.setGpr 3 0xABCDEF01#32 with cr := 0x12345678#32 } (·.cr) =
    some 0xA2345671#32 := by decide

/-- A-16, A-18. -/
theorem test_mcrf : after (.mcrf 0 7) { base with cr := 0x80000002#32 } (·.cr) = some 0x20000002#32 ∧
    after (.mcrf 7 0) { base with cr := 0x80000002#32 } (·.cr) = some 0x80000008#32 := by decide

/-- A-19, A-20. -/
theorem test_mcrxr : after (.mcrxr 2) { base with xer := 0xC0000005#32 } (fun t => (t.cr, t.xer)) =
      some (0x00C00000#32, 0x00000005#32) ∧
    after (.mcrxr 0) { base with xer := 0xE000FF7F#32, cr := 0xFFFFFFFF#32 } (fun t => (t.cr, t.xer)) =
      some (0xEFFFFFFF#32, 0x0000FF7F#32) := by decide

/-- A-22 to A-29. -/
theorem test_cr_logic : after (.crand 0 1 2) { base with cr := 0x60000000#32 } (·.cr) = some 0xE0000000#32 ∧
    after (.cror 0 1 2) { base with cr := 0x40000000#32 } (·.cr) = some 0xC0000000#32 ∧
    after (.crxor 6 6 6) { base with cr := 0xFFFFFFFF#32 } (·.cr) = some 0xFDFFFFFF#32 ∧
    after (.crnand 0 1 2) { base with cr := 0x60000000#32 } (·.cr) = some 0x60000000#32 ∧
    after (.crnor 0 1 2) base (·.cr) = some 0x80000000#32 ∧
    after (.creqv 6 6 6) base (·.cr) = some 0x02000000#32 ∧
    after (.crandc 0 1 2) { base with cr := 0x40000000#32 } (·.cr) = some 0xC0000000#32 ∧
    after (.crorc 0 1 2) { base with cr := 0x20000000#32 } (·.cr) = some 0x20000000#32 := by decide

/-- A-31: the source is read before the destination is written. -/
theorem test_crnor_same_bit : after (.crnor 2 2 2) { base with cr := 0x20000000#32 } (·.cr) = some 0#32 := by decide

/-- F-2, F-5. -/
theorem test_mcrfs : after (.mcrfs 0 0) { base with fpscr := 0xF0000480#32 } (fun t => (t.cr, t.fpscr)) =
      some (0xF0000000#32, 0x60000480#32) ∧
    after (.mcrfs 7 3) { base with fpscr := 0x200F0000#32 } (fun t => (t.cr, t.fpscr)) = some (0x0000000F#32, 0x00070000#32) := by
  decide

/-- F-6, F-7. -/
theorem test_mtfsf : after (.mtfsf 0xFF#8 1 false) (base.setFpr 1 0x00000000FFFFFFFF#64) (·.fpscr) = some 0xFFFFF7FF#32 ∧
    after (.mtfsf 0xFF#8 1 false) { base.setFpr 1 0x0000000060000000#64 with fpscr := 0xFFFFF7FF#32 } (·.fpscr) = some 0#32 := by
  decide

/-- F-14, F-17. -/
theorem test_mtfsfi : after (.mtfsfi 0 15#4 false) base (·.fpscr) = some 0x90000000#32 ∧
    after (.mtfsfi 6 8#4 true) { base with fpscr := 0x20000400#32 } (fun t => (t.fpscr, t.cr)) =
      some (0x60000480#32, 0x06000000#32) := by decide

/-- F-21, F-23. -/
theorem test_mtfsb0 : after (.mtfsb0 1 false) { base with fpscr := 0x60000480#32 } (·.fpscr) = some 0x60000480#32 ∧
    after (.mtfsb0 21 false) { base with fpscr := 0xE0000480#32 } (·.fpscr) = some 0x80000080#32 := by decide

/-- F-9, F-10. -/
theorem test_mtfsb1 : after (.mtfsb1 21 false) { base with fpscr := 0x80#32 } (·.fpscr) = some 0xE0000480#32 ∧
    why? (exec (.mtfsb1 21 false) { base with fpscr := 0x80#32, msr := 0x2800#32 }) = some .fexEnabledAfterFpscrMove := by decide

/-- F-33, F-34. -/
theorem test_mffs : after (.mffs 31 true) { base with fpscr := 0x90000000#32 } (·.cr) = some 0x09000000#32 ∧
    after (.mffs 2 false) { base with msr := 0x4000#32 } (fun t => (t.srr0, t.msr, t.pc)) =
      some (0x2000#32, 0#32, 0x800#32) := by decide

/-- V-1, V-2. -/
theorem test_mfmsr : after (.mfmsr 3) { base with msr := 0x9042#32 } (·.gpr 3) = some 0x9042#32 ∧
    after (.mfmsr 3) { base with msr := 0x4000#32, pc := 0x4000#32 } (fun t => (t.srr0, t.msr, t.pc)) =
      some (0x4000#32, 0#32, 0x700#32) := by decide

/-- V-3. -/
theorem test_mtmsr : after (.mtmsr 3) (base.setGpr 3 0xFFFFFFFE#32) (·.msr) = some 0x1FF42#32 := by decide

/-- V-23. -/
theorem test_sc : after .sc { base with msr := 0x1042#32, pc := 0x3000#32 } (fun t => (t.srr0, t.msr, t.pc)) =
    some (0x3004#32, 0x1040#32, 0xFFF00C00#32) := by decide

/-- V-24, V-26. -/
theorem test_rfi : after .rfi { base with srr0 := 0x3007#32, srr1 := 0x1234D002#32, msr := 0x11000#32 } (fun t => (t.msr, t.pc)) =
      some (0x1D002#32, 0x3004#32) ∧
    after .rfi { base with srr1 := 0xFFFFFFFF#32, msr := 0#32 } (·.msr) = some 0xFF43#32 := by decide

/-- B-2, B-5. -/
theorem test_b : after (.b (-8) false true) base (fun t => (t.pc, t.lr)) = some (0x1FF8#32, 0x2004#32) ∧
    after (.b (-0x2000) false false) { base with pc := 0x1000#32 } (·.pc) = some 0xFFFFF000#32 := by decide

/-- B-13, B-15. -/
theorem test_bc : after (.bc 16#5 0 (-4) false false) { base with pc := 0x2010#32 } (fun t => (t.ctr, t.pc)) =
      some (0xFFFFFFFF#32, 0x200C#32) ∧
    after (.bc 8#5 1 8 false false) { base with ctr := 5#32 } (fun t => (t.ctr, t.pc)) = some (4#32, 0x2004#32) := by decide

/-- B-18, B-19. -/
theorem test_bclr : after (.bclr 20#5 0 false) { base with lr := 0x1237#32 } (fun t => (t.pc, t.lr)) =
      some (0x1234#32, 0x1237#32) ∧
    after (.bclr 20#5 0 true) { base with lr := 0x3000#32 } (fun t => (t.pc, t.lr)) = some (0x3000#32, 0x2004#32) := by decide

/-- B-22, B-25. -/
theorem test_bcctr : after (.bcctr 20#5 0 false) { base with ctr := 0x4003#32 } (fun t => (t.pc, t.ctr)) =
      some (0x4000#32, 0x4003#32) ∧
    why? (exec (.bcctr 16#5 0 false) base) = some .bcctrWithCtrDecrement := by decide

/-- I-1, I-2: the same operands, signed and unsigned. -/
theorem test_compares : after (.cmp 0 3 4) ((base.setGpr 3 0x80000000#32).setGpr 4 1#32) (·.cr) = some 0x80000000#32 ∧
    after (.cmpl 0 3 4) ((base.setGpr 3 0x80000000#32).setGpr 4 1#32) (·.cr) = some 0x40000000#32 ∧
    after (.cmpi 0 3 (-1)) (base.setGpr 3 0xFFFFFFFF#32) (·.cr) = some 0x20000000#32 ∧
    after (.cmpli 2 3 1) base (·.cr) = some 0x00800000#32 := by decide

/-- R280: an rA field of 0 is the constant 0, and no flag moves. -/
theorem test_addi : after (.addi 3 0 1) (base.setGpr 0 0xFFFFFFFF#32) (·.gpr 3) = some 1#32 ∧
    after (.addi 3 3 1) (base.setGpr 3 0xFFFFFFFF#32) (fun t => (t.gpr 3, t.xer, t.cr)) = some (0#32, 0#32, 0#32) := by decide

/-- R281: both examples. -/
theorem test_addic : after (.addicDot 3 3 (-1)) (base.setGpr 3 1#32) (fun t => (t.gpr 3, t.xer, t.cr)) =
      some (0#32, 0x20000000#32, 0x20000000#32) ∧
    after (.addicDot 5 4 1) (base.setGpr 4 0x7FFFFFFF#32) (fun t => (t.gpr 5, t.xer, t.cr)) =
      some (0x80000000#32, 0#32, 0x80000000#32) := by decide

/-- R282, R283. -/
theorem test_and_immediate : after (.andiDot 3 4 0xFF) (base.setGpr 4 0x12345678#32) (fun t => (t.gpr 3, t.cr)) =
      some (0x78#32, 0x40000000#32) ∧
    after (.andisDot 3 4 0x8000) (base.setGpr 4 0xFFFF0000#32) (fun t => (t.gpr 3, t.cr)) =
      some (0x80000000#32, 0x80000000#32) := by decide

/-- R284: the example with overflow, and equal operands. -/
theorem test_subfc : after (.subfc 3 4 5 true true) ((base.setGpr 4 1#32).setGpr 5 0x80000000#32) (fun t => (t.gpr 3, t.xer, t.cr)) =
      some (0x7FFFFFFF#32, 0xE0000000#32, 0x50000000#32) ∧
    after (.subfc 4 4 4 true false) (base.setGpr 4 9#32) (fun t => (t.gpr 4, t.xer, t.cr)) =
      some (0#32, 0x20000000#32, 0#32) := by decide

/-- R286, R104. -/
theorem test_lwz : after (.lwz 3 0 0x3000) { base with mem := Memory.writeBytes [] 0x3000#32 [0x12#8, 0x34#8, 0x56#8, 0x78#8] }
      (·.gpr 3) = some 0x12345678#32 ∧
    why? (exec (.lwz 3 0 0x3001) base) = some .misalignedAccess := by decide

/-- R111: outside MEM_MAP a load and a fetch are refused. -/
theorem test_unmapped_refused : why? (exec (.lwz 3 0 0x3000) { base with par := { defaultParams with memMap := [] } }) = some .unmappedAccess ∧
    why? (step { base with par := { defaultParams with memMap := [] } }) = some .unmappedAccess := by decide

/-- B-26. -/
theorem test_pc_wrap : why? (exec (.addi 3 0 1) last) = some .pcWrap := by decide

/-! ### The step -/

/-- The instruction placed at the pc runs as the first instruction after reset. -/
theorem test_step_from_reset : (next? (step (State.reset.withFetchWord 32 0x38600007))).map (fun t => (t.gpr 3, t.pc)) =
    some (7#32, 0x104#32) := by decide

/-- V-5: the step after an mtmsr that sets EE takes the pending decrementer request. -/
theorem test_decrementer_taken : (next? (step { base with msr := 0x9002#32, pc := 0x2004#32, decReq := true })).map
    (fun t => (t.srr0, t.msr, t.pc, t.decReq)) = some (0x2004#32, 0x1000#32, 0x900#32, false) := by decide

/-- R317: a traced instruction. -/
theorem test_trace : (next? (step (holding 0x38600007 { base with msr := 0x400#32 }))).map (fun t => (t.gpr 3, t.srr0, t.pc)) =
    some (7#32, 0x2004#32, 0xD00#32) := by decide

/-- T-7, T-13. -/
theorem test_ticks : (next? (step { base with env := [.tbTick], tb := 0x00000000FFFFFFFF#64 })).map (·.tb) =
      some 0x0000000100000000#64 ∧
    (next? (step { base with env := [.decTick] })).map (fun t => (t.dec, t.decReq)) = some (0xFFFFFFFF#32, true) := by decide

/-! ### For each statement with hypotheses, states and operands that meet them -/

/-- A platform whose low half may be read and written and whose high half may be fetched. -/
def splitMap : State :=
  { base with par := { defaultParams with memMap := [⟨0, 0x80000000, true, true, false⟩, ⟨0x80000000, 0x100000000, false, false, true⟩] } }

/-- A platform with no memory. -/
def noMemory : State := { base with par := { defaultParams with memMap := [] } }

/-- `base` with EE = 1. -/
def enabled : State := { base with msr := 0x0000A000#32 }

theorem witness_DecodeInvertsEncode : Instr.wellFormed (.addi 31 31 (-32768)) = true ∧
    Instr.wellFormed (.b 33554428 true true) = true ∧ Instr.wellFormed (.mfspr 31 1023) = true ∧
    Instr.wellFormed (.bc 31#5 31 32764 true true) = true ∧ Instr.wellFormed (.andisDot 31 31 65535) = true := by decide

theorem witness_EncodeInvertsDecode : decode 0xFDFE0D8E#32 = some (.mtfsf 0xFF#8 1 false) := by decide

theorem witness_DecodeMatchesOpcodeMap : (⟨"sc", 0x44000002#32, 0xFFFFFFFF#32⟩ : OpcodeRow) ∈ opcodeMap := by decide

theorem witness_EncodedBytesDecode : Instr.wellFormed (.lwz 31 31 (-1)) = true := by decide

/-- The core about to execute `mfcr r5`, with no schedule and with one. -/
theorem witness_StepRunsDecodedInstruction :
    (CoreMoves (holding 0x7CA00026 base) (holding 0x7CA00026 base) ∧ AboutToExecute (.mfcr 5) (holding 0x7CA00026 base)) ∧
    (CoreMoves { holding 0x7CA00026 base with env := [.core, .tbTick] } { holding 0x7CA00026 base with env := [.tbTick] }) :=
  ⟨⟨.inl ⟨rfl, rfl⟩, by decide, by decide, by unfold Accessible; decide, by decide⟩, .inr ⟨[.tbTick], rfl, rfl⟩⟩

theorem witness_PlacedWordRunsNext : Memory.wf noMemory.mem = true ∧
    decode (BitVec.ofNat 32 (0x44000002 % 2 ^ 32)) = some .sc := by decide

theorem witness_PendingRequestsAreTaken :
    (CoreMoves { enabled with extReq := true, decReq := true } { enabled with extReq := true, decReq := true } ∧
      getBit enabled.msr 16 = true) ∧
    (CoreMoves { enabled with decReq := true } { enabled with decReq := true } ∧ { enabled with decReq := true }.extReq = false) :=
  ⟨⟨.inl ⟨rfl, rfl⟩, by decide⟩, .inl ⟨rfl, rfl⟩, rfl⟩

theorem witness_StepStops :
    (CoreMoves { base with msr := 1#32 } { base with msr := 1#32 } ∧ NoInterrupt { base with msr := 1#32 } ∧
      getBit (1#32) 31 = true) ∧
    (CoreMoves noMemory noMemory ∧ NoInterrupt noMemory ∧ getBit noMemory.msr 31 = false ∧
      ¬ Accessible Region.mayFetch noMemory.pc 4 noMemory) ∧
    (CoreMoves base base ∧ NoInterrupt base ∧ Accessible Region.mayFetch base.pc 4 base ∧
      decode (wordAt base.pc base) = none) :=
  ⟨⟨.inl ⟨rfl, rfl⟩, by decide, by decide⟩,
   ⟨.inl ⟨rfl, rfl⟩, by decide, by decide, by unfold Accessible; decide⟩,
   ⟨.inl ⟨rfl, rfl⟩, by decide, by unfold Accessible; decide, by decide⟩⟩

/-- A traced instruction (SE), a traced branch (BE), and an instruction that is not traced. -/
theorem witness_TraceFollowsCompletion :
    (Traced (.mfcr 5) (holding 0x7CA00026 { base with msr := 0x400#32 }) ∧
      AboutToExecute (.mfcr 5) (holding 0x7CA00026 { base with msr := 0x400#32 }) ∧
      ∃ t, exec (.mfcr 5) (holding 0x7CA00026 { base with msr := 0x400#32 }) = .next t) ∧
    Traced (.b 0 false false) { base with msr := 0x200#32 } ∧ ¬ Traced (.mfcr 5) { base with msr := 0x200#32 } := by
  refine ⟨⟨⟨rfl, by decide, .inl (by decide)⟩, ⟨by decide, by decide, by unfold Accessible; decide, by decide⟩, _, rfl⟩,
    ⟨rfl, by decide, .inr ⟨by decide, .inl ⟨0, false, false, rfl⟩⟩⟩, ?_⟩
  rintro ⟨-, -, h | ⟨-, h⟩⟩
  · exact absurd h (by decide)
  · simp at h

theorem witness_OtherAgentsMove : { base with env := [EnvStep.tbTick] }.env = .tbTick :: [] ∧
    { base with env := [EnvStep.decTick] }.env = .decTick :: [] ∧
    { base with env := [EnvStep.extIrq true] }.env = .extIrq true :: [] := by decide

theorem witness_ResetDuringRun : { base with env := [EnvStep.reset] }.env = .reset :: [] := rfl

theorem witness_RfiRestoresContext : getBit base.msr 17 = false := by decide

theorem witness_PrivilegedAtUserLevel : getBit user.msr 17 = true ∧ 16 / 16 % 2 = 1 ∧ 1023 / 16 % 2 = 1 := by decide

theorem witness_EmulatedReadsTrap : getBit base.msr 17 = false ∧ (80 = 80 ∨ 80 = 81 ∨ 80 = 82) := by decide

theorem witness_FpUnavailableTaken : getBit State.reset.msr 18 = false := by decide

/-- A user-level register at user level, a supervisor-level one at supervisor level. -/
theorem witness_MfsprReadsRegister : user.pc ≠ lastWord ∧ base.pc ≠ lastWord ∧ getBit base.msr 17 = false ∧
    (∃ k : Fin 4, 275 = 272 + k.val) := ⟨by decide, by decide, by decide, 3, rfl⟩

theorem witness_MtsprStoresRegister : base.pc ≠ lastWord ∧ getBit base.msr 17 = false := by decide

theorem witness_MtdecSignalsRequest : base.pc ≠ lastWord ∧ getBit base.msr 17 = false := by decide

theorem witness_TimeBaseMoves : base.pc ≠ lastWord ∧ getBit base.msr 17 = false := by decide

theorem witness_EieEidNriSetMsr : base.pc ≠ lastWord ∧ getBit base.msr 17 = false ∧
    (82, false, false) ∈ [(80, true, true), (81, false, true), (82, false, false)] := by decide

/-- Each clause at a boundary: 144 and 159, 562, 287, the neighbours of the defined numbers, at both levels. -/
theorem witness_SprAccessesRefused : (getBit base.msr 17 = false ∨ 144 / 16 % 2 = 0) ∧
    (getBit user.msr 17 = false ∨ 2 / 16 % 2 = 0) ∧ (144 ≤ 144 ∧ 159 ≤ 159) ∧
    143 ∉ [1, 8, 9, 18, 19, 22, 26, 27, 80, 81, 82, 272, 273, 274, 275, 287, 560, 561, 562, 630, 1022] ∧
    562 ∉ [1, 8, 9, 18, 19, 22, 26, 27, 80, 81, 82, 272, 273, 274, 275, 284, 285, 287, 560, 561, 630, 1022] ∧
    ¬ (144 ≤ 562 ∧ 562 ≤ 159) ∧ ¬ (144 ≤ 160 ∧ 160 ≤ 159) ∧ 267 ≠ 268 ∧ 270 ≠ 269 := by decide

theorem witness_MsrMoves : base.pc ≠ lastWord ∧ getBit base.msr 17 = false := by decide

theorem witness_CrMoves : base.pc ≠ lastWord := by decide

theorem witness_McrxrCopiesAndClears : base.pc ≠ lastWord := by decide

theorem witness_CrLogicWritesOneBit : base.pc ≠ lastWord ∧
    (Instr.crorc 0 1 2, true) ∈ [(Instr.crand 0 1 2, false), (Instr.crorc 0 1 2, getBit base.cr 1 || !getBit base.cr 2)] := by
  decide

/-- An enabled exception in ignore mode, and none in precise mode. -/
theorem witness_McrfsCopiesAndClears : base.pc ≠ lastWord ∧ getBit base.msr 18 = true ∧
    MayMove (mcrfsBits 0 { base with fpscr := 0xF0000480#32 }) { base with fpscr := 0xF0000480#32 } ∧
    MayMove (mcrfsBits 5 { base with msr := 0x2900#32 }) { base with msr := 0x2900#32 } :=
  ⟨by decide, by decide, .inr (by decide), .inl (by decide)⟩

theorem witness_MtfsfWritesFields : base.pc ≠ lastWord ∧ getBit base.msr 18 = true ∧
    MayMove (mtfsfBits 0x80#8 1 base) base ∧ MayMove (mtfsfBits 0x7F#8 1 base) base :=
  ⟨by decide, by decide, .inl (by decide), .inl (by decide)⟩

theorem witness_MtfsfiWritesField : base.pc ≠ lastWord ∧ getBit base.msr 18 = true ∧
    MayMove (mtfsfiBits 0 15#4 base) base ∧ MayMove (mtfsfiBits 7 15#4 base) base :=
  ⟨by decide, by decide, .inr (by decide), .inl (by decide)⟩

theorem witness_Mtfsb0AndMtfsb1WriteOneBit : base.pc ≠ lastWord ∧ getBit base.msr 18 = true ∧
    MayMove (mtfsb0Bits 3 base) base ∧ MayMove (mtfsb1Bits 21 base) base :=
  ⟨by decide, by decide, .inl (by decide), .inl (by decide)⟩

theorem witness_MffsReadsFpscr : base.pc ≠ lastWord ∧ getBit base.msr 18 = true := by decide

/-- Each move leaves the enabled exception that stands, with FE0 alone and with FE1 alone. -/
theorem witness_OutstandingFpExceptionRefused :
    let s : State := { base with fpscr := 0xE0000480#32, msr := 0x2800#32 }
    getBit s.msr 18 = true ∧ (getBit s.msr 20 = true ∨ getBit s.msr 23 = true) ∧ fexOfBits (mcrfsBits 6 s) = true ∧
      fexOfBits (mtfsfBits 0#8 1 s) = true ∧ fexOfBits (mtfsfiBits 7 0#4 s) = true ∧ fexOfBits (mtfsb0Bits 31 s) = true ∧
      fexOfBits (mtfsb1Bits 31 s) = true ∧ getBit (0x2100#32) 23 = true := by decide

theorem witness_RcRecordsFpStatusInCr1 : base.pc ≠ lastWord ∧ getBit base.msr 18 = true ∧
    MayMove (mtfsfBits 0xFF#8 1 base) base ∧ MayMove (mtfsfiBits 0 9#4 base) base ∧ MayMove (mtfsb0Bits 3 base) base ∧
    MayMove (mtfsb1Bits 3 base) base ∧ MayMove (fun _ => false) base :=
  ⟨by decide, by decide, .inl (by decide), .inl (by decide), .inl (by decide), .inl (by decide), .inl (by decide)⟩

/-- mtfsb0 0 clears FX. -/
theorem witness_FpscrStickiness : ∃ t, step (holding 0xFC00008C { base with fpscr := 0x90000000#32 }) = .next t ∧
    (((0 : BitNo).val = 0) ∨ ExceptionBit (0 : BitNo).val) ∧
    getBit (holding 0xFC00008C { base with fpscr := 0x90000000#32 }).fpscr 0 = true ∧ getBit t.fpscr 0 = false :=
  ⟨_, rfl, .inl rfl, by decide, by decide⟩

theorem witness_VxIsTheOr : (∃ t, step (holding 0xFEA0004C base) = .next t ∧ VxIsOr (holding 0xFEA0004C base).fpscr) ∧
    (getBit base.msr 18 = true ∧ ∃ t, exec (.mtfsb1 21 false) base = .next t) :=
  ⟨⟨_, rfl, by unfold VxIsOr; decide⟩, by decide, _, rfl⟩

theorem witness_BranchUnconditional : LiOk (-33554432) ∧ LiOk 33554428 := by decide

/-- The condition true at the last word, and false before it. -/
theorem witness_BranchConditional : BdOk (-32768) ∧ BdOk 32764 ∧ (BranchCondition 20#5 0 last ∨ last.pc ≠ lastWord) ∧
    (BranchCondition 12#5 2 base ∨ base.pc ≠ lastWord) ∧ ¬ BranchCondition 12#5 2 base :=
  ⟨by decide, by decide, .inl ⟨.inl (by decide), .inl (by decide)⟩, .inr (by decide), by
    rintro ⟨-, h | h⟩ <;> exact absurd h (by decide)⟩

theorem witness_BranchToRegister : (BranchCondition 16#5 0 { last with ctr := 2#32 } ∨ last.pc ≠ lastWord) ∧
    (20#5).getMsbD 2 = true ∧ (BranchCondition 20#5 0 last ∨ last.pc ≠ lastWord) ∧ (16#5).getMsbD 2 = false :=
  ⟨.inl ⟨.inr (by unfold ctrAfter; decide), .inl (by decide)⟩, by decide, .inl ⟨.inl (by decide), .inl (by decide)⟩, by decide⟩

theorem witness_CompareRecordsOrder : base.pc ≠ lastWord ∧ SimmOk (-32768) ∧ UimmOk 65535 := by decide

theorem witness_IntegerResultRecordedInCr0 : base.pc ≠ lastWord ∧ SimmOk 32767 ∧ UimmOk 65535 := by decide

theorem witness_AddiAdds : base.pc ≠ lastWord ∧ SimmOk (-32768) := by decide

theorem witness_AddicDotAddsAndRecords : base.pc ≠ lastWord ∧ SimmOk 32767 := by decide

theorem witness_AndImmediateRecords : base.pc ≠ lastWord ∧ UimmOk 65535 := by decide

theorem witness_SubfcSubtracts : base.pc ≠ lastWord := by decide

/-- subfco sets SO and OV in a step. -/
theorem witness_SummaryOverflowAndOverflow : base.pc ≠ lastWord ∧
    ∃ t, step (holding 0x7C642C11 ((base.setGpr 4 1#32).setGpr 5 0x80000000#32)) = .next t ∧ getBit t.xer 0 ≠ getBit base.xer 0 ∧
      getBit t.xer 1 ≠ getBit base.xer 1 :=
  ⟨by decide, _, rfl, by decide, by decide⟩

/-- The four clauses, each at an edge: the last word, an odd address, little-endian mode, no memory. -/
theorem witness_LwzLoadsWord : SimmOk (-4) ∧
    ((0xFFFFFFFC#32).toNat : Int) = ((if (0 : Reg).val = 0 then 0 else ((base.gpr 0).toNat : Int)) + (-4)) % 4294967296 ∧
    (0xFFFFFFFC#32).toNat % 4 = 0 ∧ getBit base.msr 31 = false ∧ Accessible Region.mayRead 0xFFFFFFFC#32 4 base ∧
    base.pc ≠ lastWord ∧ (0xFFFFFFFD#32).toNat % 4 ≠ 0 ∧ getBit (1#32) 31 = true ∧
    ¬ Accessible Region.mayRead 0xFFFFFFFC#32 4 noMemory :=
  ⟨by decide, by decide, by decide, by decide, by unfold Accessible; decide, by decide, by decide, by decide, by
    unfold Accessible; decide⟩

/-- An instruction that only falls through, and a branch not taken. -/
theorem witness_FallThroughAtLastWordRefused : last.pc = lastWord ∧ syncException (.mfcr 0) last = none ∧
    syncException (.bc 12#5 2 8 false false) last = none ∧ ¬ BranchCondition 12#5 2 last :=
  ⟨rfl, rfl, rfl, by rintro ⟨-, h | h⟩ <;> exact absurd h (by decide)⟩

/-- Its second clause: instructions that complete at another pc, a load among them, and a branch that is not taken. -/
theorem witness_FallThroughAtLastWordRefused_elsewhere :
    (∃ u, exec (.mfspr 3 8) { last with pc := 0x100#32 } = .next u) ∧
    (∃ u, exec (.lwz 3 0 0x100) { last with pc := 0x100#32 } = .next u) ∧
    (∃ u, exec (.bc 12#5 2 8 false false) { last with pc := 0x100#32 } = .next u) :=
  ⟨⟨_, rfl⟩, ⟨_, rfl⟩, ⟨_, rfl⟩⟩

theorem witness_StoredWordReadsBack : Memory.wf splitMap.mem = true ∧
    (∃ t, splitMap.memWrite 0x7FFFFFFC#32 (bytesOfWord 0x12345678#32) = .next t) ∧
    Accessible Region.mayRead 0x7FFFFFFC#32 4 splitMap := ⟨rfl, ⟨_, rfl⟩, by unfold Accessible; decide⟩

/-- A state of the invariant, other than the one after reset. -/
theorem inv_holding : Inv (holding 0x7CA00026 base) where
  memory := by decide
  pcAligned := by decide
  msrReserved := by decide
  xerReserved := by decide
  fpscrReserved := by decide
  vx := by unfold VxIsOr; decide
  fex := by unfold FexIsOr; decide
  params := ⟨by decide, fun e => by cases e <;> decide⟩

theorem witness_ReservedFields : Inv (holding 0x7CA00026 base) ∧ (holding 0x7CA00026 base).pc ≠ lastWord ∧
    getBit (holding 0x7CA00026 base).msr 17 = false ∧ getBit (holding 0x7CA00026 base).msr 18 = true ∧
    (∃ t, exec (.mtfsb0 3 false) (holding 0x7CA00026 base) = .next t) ∧
    ∃ t, exec (.mcrfs 0 5) (holding 0x7CA00026 base) = .next t :=
  ⟨inv_holding, by decide, by decide, by decide, ⟨_, rfl⟩, _, rfl⟩

theorem witness_PvrIsReadOnly : base.pc ≠ lastWord ∧ getBit base.msr 17 = false ∧ getBit user.msr 17 = true ∧
    ∃ t, step (holding 0x7C7F42A6 base) = .next t := ⟨by decide, by decide, by decide, _, rfl⟩

/-- mtcrf 0x81 changes CR bit 0. -/
theorem witness_CrWrittenOnlyAsListed : ∃ t, step (holding 0x7C681120 (base.setGpr 3 0xABCDEF01#32)) = .next t ∧
    getBit t.cr 0 ≠ getBit (holding 0x7C681120 (base.setGpr 3 0xABCDEF01#32)).cr 0 := ⟨_, rfl, by decide⟩

theorem witness_StepKeepsInv : Inv (holding 0x7CA00026 base) ∧ ∃ t, step (holding 0x7CA00026 base) = .next t :=
  ⟨inv_holding, _, rfl⟩

/-- A step that stays at user level, and one that leaves it. -/
theorem witness_UserLevelIsConfined :
    (CoreMoves (holding 0x7CA00026 user) (holding 0x7CA00026 user) ∧ getBit user.msr 17 = true ∧ NoInterrupt user ∧
      ∃ t, step (holding 0x7CA00026 user) = .next t) ∧
    (CoreMoves (holding 0x44000002 user) (holding 0x44000002 user) ∧ ∃ t, step (holding 0x44000002 user) = .next t) :=
  ⟨⟨.inl ⟨rfl, rfl⟩, by decide, by decide, _, rfl⟩, .inl ⟨rfl, rfl⟩, _, rfl⟩

/-- rfi and mtmsr that drop to user level. -/
theorem witness_SupervisorLevelIsLeftOnlyByTwo :
    (∃ t, step (holding 0x4C000064 { base with srr1 := 0x4000#32 }) = .next t ∧ getBit t.msr 17 = true) ∧
    (∃ t, step (holding 0x7C600124 (base.setGpr 3 0x4000#32)) = .next t ∧ getBit t.msr 17 = true) ∧
    getBit base.msr 17 = false := ⟨⟨_, rfl, by decide⟩, ⟨_, rfl, by decide⟩, by decide⟩

theorem witness_SupervisorStateIsHidden : getBit user.msr 17 = true ∧
    OnlyChanges SupervisorPart (holding 0x44000002 user) { holding 0x44000002 user with srr0 := 5#32, decReq := true } ∧
    NoInterrupt (holding 0x44000002 user) ∧ NoInterrupt { holding 0x44000002 user with srr0 := 5#32, decReq := true } ∧
    ∃ t, step (holding 0x44000002 user) = .next t := by
  refine ⟨by decide, fun p hp => ?_, by decide, by decide, _, rfl⟩
  cases p <;> first | rfl | exact absurd (by simp [SupervisorPart]) hp

theorem witness_DecRequestIsNotLost : ∃ t, step { enabled with decReq := true } = .next t ∧ t.decReq = false :=
  ⟨_, rfl, by decide⟩

theorem witness_ConstantsAreKept : ∃ t, step (holding 0x7CA00026 base) = .next t := ⟨_, rfl⟩

end Sys2Proof.Tests
end

section
/-! The constant fields of the state (memory, the parameters, the registers whose access is refused, PVR): one rule for each
shared operation, one lemma for the instructions, one for the step of any agent. -/

namespace Sys2Proof.Machine

/-- The fields of the state that no step writes. -/
structure Constants where
  mem : Memory
  par : Config.Params
  unspecified : UnspecifiedRegs
  pvr : Word

/-- The constants that `s` holds. The schedule and every other register are left out, since some step writes them. -/
def State.constants (s : State) : Constants :=
  { mem := s.mem, par := s.par, unspecified := s.unspecified, pvr := s.pvr }

theorem State.constants_eq_iff {s t : State} :
    t.constants = s.constants ↔
      t.mem = s.mem ∧ t.par = s.par ∧ t.unspecified = s.unspecified ∧ t.pvr = s.pvr := by
  simp [State.constants]

/-! ### The constants after each operation on the state -/

@[simp] theorem enter_constants (e : Exc) (a : Word) (s : State) : (enter e a s).constants = s.constants := rfl

@[simp] theorem raise_constants (e : Exc) (s : State) : (raise e s).constants = s.constants := rfl

@[simp] theorem returnFromException_constants (s : State) : (returnFromException s).constants = s.constants := rfl

@[simp] theorem assertReset_constants (s : State) : (assertReset s).constants = s.constants := rfl

@[simp] theorem State.tbTick_constants (s : State) : s.tbTick.constants = s.constants := rfl

@[simp] theorem State.decTick_constants (s : State) : s.decTick.constants = s.constants := rfl

@[simp] theorem State.recordCr1_constants (s : State) : s.recordCr1.constants = s.constants := rfl

@[simp] theorem State.setFpscrImplicitFx_constants (s : State) (f : Word) :
    (s.setFpscrImplicitFx f).constants = s.constants := by
  obtain h | ⟨-, -, ⟨-, h⟩ | ⟨-, h⟩⟩ := s.setFpscrImplicitFx_cases f <;> rw [h] <;> rfl

/-- A choice between two states that both hold the constants `c` holds them: the recording that Rc selects, an explicit or an
implicit FX, the trace entry. -/
theorem State.constants_ite {p : Prop} [Decidable p] {a b : State} {c : Constants} (ha : a.constants = c)
    (hb : b.constants = c) : (if p then a else b).constants = c := by
  split
  · exact ha
  · exact hb

/-! ### Outcomes that keep the constants -/

/-- If `r` answers a next state, that state holds the constants `c`. -/
def AnswersWith (c : Constants) (r : Result State) : Prop := ∀ t, r = .next t → t.constants = c

section
variable {c : Constants} {s : State}

theorem answersWith_next (h : s.constants = c) : AnswersWith c (.next s) := by
  intro t ht
  cases ht
  exact h

theorem answersWith_refused (r : Refusal) : AnswersWith c (.refused r) := nofun

theorem answersWith_andThen {α : Type} {o : Result α} {k : α → Result State}
    (h : ∀ a, o = .next a → AnswersWith c (k a)) : AnswersWith c (andThen o k) := by
  intro t ht
  obtain ⟨a, ho, hk⟩ := andThen_eq_next.mp ht
  exact h a ho t hk

theorem answersWith_advance (h : s.constants = c) : AnswersWith c (advance s) := by
  intro t ht
  obtain ⟨-, rfl⟩ := advance_eq_next.mp ht
  exact h

theorem answersWith_finishBranch (lk taken : Bool) (target : Word) (h : s.constants = c) :
    AnswersWith c (finishBranch lk taken target s) := by
  intro t ht
  obtain ⟨-, rfl⟩ := finishBranch_eq_next.mp ht
  exact h

theorem answersWith_finishFpscr (rc : Bool) (h : s.constants = c) : AnswersWith c (finishFpscr rc s) := by
  intro t ht
  obtain ⟨-, hadv⟩ := finishFpscr_eq_next.mp ht
  exact answersWith_advance (State.constants_ite ((State.recordCr1_constants s).trans h) h) t hadv

/-- An instruction's own exception keeps the constants, so only its effect has to. -/
theorem answersWith_unlessRaised (i : Instr) {r : Result State} (h : AnswersWith s.constants r) :
    AnswersWith s.constants (unlessRaised i s r) := by
  intro t ht
  obtain ⟨e, -, rfl⟩ | ⟨-, hr⟩ := unlessRaised_eq_next.mp ht
  · exact raise_constants e s
  · exact h t hr

/-- mtspr reaches none of the registers of R58 and R249: it refuses them. -/
theorem answersWith_writeSpr (n : Nat) (v : Word) (s : State) : AnswersWith s.constants (writeSpr n v s) := by
  intro t ht
  obtain ⟨-, rfl⟩ | ⟨-, rfl⟩ | ⟨-, rfl⟩ | ⟨-, rfl⟩ | ⟨-, rfl⟩ | ⟨-, rfl⟩ | ⟨-, rfl⟩ | ⟨-, rfl⟩ | ⟨-, rfl⟩ | ⟨-, rfl⟩ |
    ⟨-, rfl⟩ | ⟨k, -, rfl⟩ | ⟨-, rfl⟩ | ⟨-, rfl⟩ := writeSpr_eq_next ht <;> rfl

end

/-! ### The instructions and the step -/

/-- No instruction of R142 stores, or writes a parameter, the PVR or a register of R249: each ends in one of the operations
above, on a state with the constants it began with. -/
theorem exec_answersWith (i : Instr) (s : State) : AnswersWith s.constants (exec i s) := by
  cases i with
  | cmp | cmpi | cmpl | cmpli | addi | addicDot | andiDot | andisDot | mfcr | mtcrf | mcrf | mcrxr | crand | cror | crxor
  | crnand | crnor | creqv | crandc | crorc => exact answersWith_advance rfl
  | subfc => exact answersWith_advance (State.constants_ite rfl rfl)
  | b disp aa lk => exact answersWith_finishBranch lk true (s.branchTarget disp aa) rfl
  | bc | bclr => exact answersWith_finishBranch _ _ _ rfl
  | bcctr bo bi lk =>
    simp only [exec, execBcctr]
    split
    · exact answersWith_finishBranch _ _ _ rfl
    · exact answersWith_refused _
  | lwz rD rA d =>
    simp only [exec, execLwz]
    split
    · exact answersWith_refused _
    · exact answersWith_andThen fun _ _ => answersWith_advance rfl
  | sc => exact answersWith_next (raise_constants _ s)
  | rfi => exact answersWith_unlessRaised _ (answersWith_next (returnFromException_constants s))
  | mfmsr | mtmsr => exact answersWith_unlessRaised _ (answersWith_advance rfl)
  | mfspr | mftb =>
    exact answersWith_unlessRaised _ (answersWith_andThen fun _ _ => answersWith_advance rfl)
  | mtspr n rS =>
    exact answersWith_unlessRaised _ (answersWith_andThen fun t ht =>
      answersWith_advance (answersWith_writeSpr n (s.gpr rS) s t ht))
  | mcrfs | mtfsb0 | mtfsb1 => exact answersWith_unlessRaised _ (answersWith_finishFpscr _ rfl)
  | mtfsf | mtfsfi =>
    exact answersWith_unlessRaised _ (answersWith_finishFpscr _
      (State.constants_ite rfl (State.setFpscrImplicitFx_constants s _)))
  | mffs => exact answersWith_unlessRaised _ (answersWith_advance (State.constants_ite rfl rfl))

theorem coreStep_answersWith (s : State) : AnswersWith s.constants (coreStep s) := by
  intro t ht
  obtain ⟨-, -, rfl⟩ | ⟨-, -, -, rfl⟩ | ⟨-, i, -, hi⟩ := coreStep_eq_next.mp ht
  · exact enter_constants _ _ s
  · exact enter_constants _ _ s
  · obtain ⟨u, hu, rfl⟩ := execTraced_eq_next.mp hi
    have hkept : u.constants = s.constants := exec_answersWith i s u hu
    exact State.constants_ite ((enter_constants _ _ u).trans hkept) hkept

/-- No step of any agent changes the constants (R4, R58, R108, R249). -/
theorem step_constants {s t : State} (h : step s = .next t) : t.constants = s.constants := by
  obtain ⟨-, hcore⟩ | ⟨rest, -, hcore⟩ | ⟨rest, -, rfl⟩ | ⟨rest, -, rfl⟩ | ⟨level, rest, -, rfl⟩ | ⟨rest, -, rfl⟩ :=
    step_eq_next.mp h
  · exact coreStep_answersWith s t hcore
  · exact coreStep_answersWith { s with env := rest } t hcore
  · exact State.tbTick_constants { s with env := rest }
  · exact State.decTick_constants { s with env := rest }
  · rfl
  · exact assertReset_constants { s with env := rest }

/-- Settles O60: the constants hold memory, the parameters and the registers of R249, and no step changes them. -/
theorem constantsAreKept : Obligations.ConstantsAreKept := by
  intro s t h
  obtain ⟨hmem, hpar, hunspecified, -⟩ := State.constants_eq_iff.mp (step_constants h)
  exact ⟨fun a => by rw [hmem], hmem, hpar, hunspecified⟩

end Sys2Proof.Machine
end

section
/-! What an instruction can do to the registers whose bits obey rules of their own: one inversion for FPSCR, XER, MSR and
the pending decrementer request, one for the CR. -/

namespace Sys2Proof.Machine

open Sys2Proof.Config

/-! ### Outcomes -/

/-- An instruction that raises an exception does nothing else (R8 `raise`). -/
theorem exec_of_raised {i : Instr} {s : State} {e : Exc} (h : syncException i s = some e) :
    exec i s = .next (raise e s) := by
  cases i with
  | sc =>
    cases h
    rfl
  | rfi | mfmsr | mtmsr | mfspr | mftb | mtspr | mtfsb1 | mcrfs | mtfsb0 | mtfsfi | mffs | mtfsf =>
    exact unlessRaised_of_some h
  | _ => cases h

/-- An instruction raises no asynchronous exception. -/
theorem syncException_ne_decrementer {i : Instr} {s : State} {e : Exc} (h : syncException i s = some e) :
    e ≠ .decrementer := by
  rintro rfl
  cases i <;> simp [syncException, privileged, privilegedAccess, needsFp] at h

theorem effect_of_unraised {i : Instr} {s t : State} {r : Result State} (hn : syncException i s = none)
    (h : unlessRaised i s r = .next t) : r = .next t := (unlessRaised_of_none hn).symm.trans h

/-- What an FPSCR move leaves when it ends (R210, R212). -/
theorem eq_of_finishFpscr_eq_next {rc : Bool} {s t : State} (h : finishFpscr rc s = .next t) :
    t = { s with
          cr := if rc then putNibble s.cr 1 (getNibble s.fpscr 0) else s.cr
          pc := s.pc + 4#32 } := by
  obtain ⟨-, h⟩ := finishFpscr_eq_next.mp h
  obtain ⟨-, rfl⟩ := advance_eq_next.mp h
  cases rc <;> rfl

theorem nextPc_aligned {s : State} (h : s.pc.toNat % 4 = 0) : (s.pc + 4#32).toNat % 4 = 0 := by
  simp only [BitVec.toNat_add, BitVec.toNat_ofNat]
  omega

theorem branchTarget_aligned {s : State} {disp : Int} (aa : Bool) (hd : disp % 4 = 0) (hp : s.pc.toNat % 4 = 0) :
    (s.branchTarget disp aa).toNat % 4 = 0 := by
  have hw : (signedWord disp).toNat % 4 = 0 := by
    rw [signedWord, BitVec.toNat_ofInt]
    omega
  cases aa
  · simp only [State.branchTarget, Bool.false_eq_true, if_false, BitVec.toNat_add]
    omega
  · simpa [State.branchTarget] using hw

/-- The pc that `finishBranch` leaves is aligned if the target is (R269). -/
theorem finishBranch_pcAligned {s : State} {taken : Bool} {target : Word} (ht : target.toNat % 4 = 0)
    (hp : s.pc.toNat % 4 = 0) : (if taken then target else s.pc + 4#32).toNat % 4 = 0 := by
  cases taken
  · exact nextPc_aligned hp
  · exact ht

/-- What a branch changes, and that a well-formed one at an aligned address goes to an aligned address (R63, R141). -/
theorem exec_isBranch {i : Instr} {s t : State} (hb : isBranch i = true) (h : exec i s = .next t) :
    ∃ lr ctr pc, t = { s with lr := lr, ctr := ctr, pc := pc } ∧
      (i.wellFormed = true → s.pc.toNat % 4 = 0 → pc.toNat % 4 = 0) := by
  cases i with
  | b disp aa lk =>
    obtain ⟨-, rfl⟩ := (finishBranch_eq_next (target := s.branchTarget disp aa) (taken := true)).mp h
    refine ⟨_, _, _, rfl, fun hw hp => ?_⟩
    obtain ⟨-, -, hd⟩ : LiOk disp := of_decide_eq_true hw
    exact branchTarget_aligned aa hd hp
  | bc bo bi disp aa lk =>
    obtain ⟨-, rfl⟩ := finishBranch_eq_next.mp h
    refine ⟨_, _, _, rfl, fun hw hp => ?_⟩
    obtain ⟨-, -, hd⟩ : BdOk disp := of_decide_eq_true hw
    exact finishBranch_pcAligned (branchTarget_aligned aa hd hp) hp
  | bclr bo bi lk =>
    obtain ⟨-, rfl⟩ := finishBranch_eq_next.mp h
    exact ⟨_, _, _, rfl, fun _ hp => finishBranch_pcAligned (dropLowTwo_aligned s.lr) hp⟩
  | bcctr bo bi lk =>
    simp only [exec, execBcctr] at h
    split at h
    · obtain ⟨-, rfl⟩ := finishBranch_eq_next.mp h
      exact ⟨_, _, _, rfl, fun _ hp => finishBranch_pcAligned (dropLowTwo_aligned s.ctr) hp⟩
    · cases h
  | _ => cases hb

/-- What lwz changes (R286). -/
theorem eq_of_exec_lwz {rD rA : Reg} {d : Int} {s t : State} (h : exec (.lwz rD rA d) s = .next t) :
    ∃ v, t = { s.setGpr rD v with pc := s.pc + 4#32 } := by
  simp only [exec, execLwz] at h
  split at h
  · cases h
  · obtain ⟨bytes, -, h⟩ := andThen_eq_next.mp h
    obtain ⟨-, rfl⟩ := advance_eq_next.mp h
    exact ⟨_, rfl⟩

/-! ### The FPSCR moves -/

/-- The FPSCR that a move supplies, before R201 settles its summary bits and R203 its FX; none for an instruction that
does not move to the FPSCR. -/
def movedFpscr (i : Instr) (s : State) : Option Word :=
  match i with
  | .mcrfs _ crfS => some (s.fpscr &&& ~~~(nibbleMask crfS &&& mcrfsMask))
  | .mtfsf fm frB _ => some (putFields s.fpscr ((s.fpr frB).extractLsb' 0 32) fm)
  | .mtfsfi crfD imm _ => some (putNibble s.fpscr crfD imm)
  | .mtfsb0 crbD _ => some (if crbD = 1 ∨ crbD = 2 then s.fpscr else putBit s.fpscr crbD.val false)
  | .mtfsb1 crbD _ =>
    let f := if crbD = 1 ∨ crbD = 2 ∨ crbD = 20 then s.fpscr else putBit s.fpscr crbD.val true
    some (if fpRise s.fpscr f then putBit f 0 true else f)
  | _ => none

/-- `v` is `f` with its summary bits recomputed (R201) and, where FX was 0, FX possibly written anew (R203). -/
def SettledFrom (f v : Word) : Prop :=
  v = fixSummary f ∨ (getBit f 0 = false ∧ ∃ fx, v = putBit (fixSummary f) 0 fx)

theorem getBit_of_settledFrom {f v : Word} (h : SettledFrom f v) {i : Nat} (hi : i < 32) (h0 : i ≠ 0) :
    getBit v i = getBit (fixSummary f) i := by
  obtain rfl | ⟨-, fx, rfl⟩ := h
  · rfl
  · rw [getBit_putBit _ _ _ _ (by decide) hi, if_neg h0]

theorem vxOf_congr {f g : Word} (h : ∀ i, i < 32 → i ≠ 0 → i ≠ 1 → i ≠ 2 → i ≠ 20 → getBit f i = getBit g i) :
    vxOf f = vxOf g := by
  simp [vxOf_eq, h]

theorem fexOf_congr {f g : Word} (h : ∀ i, i < 32 → i ≠ 0 → i ≠ 1 → i ≠ 20 → getBit f i = getBit g i) :
    fexOf f = fexOf g := by
  simp [fexOf, h]

/-- Settling an FPSCR clears bit 20 and makes both summary bits true (R20, R28, R29). -/
theorem summaries_of_settledFrom {f v : Word} (h : SettledFrom f v) :
    getBit v 20 = false ∧ VxIsOr v ∧ FexIsOr v := by
  have hv : ∀ i, i < 32 → i ≠ 0 → getBit v i = _ := fun i hi h0 =>
    (getBit_of_settledFrom h hi h0).trans (getBit_fixSummary f i hi)
  have h20 : ∀ i, i < 32 → i ≠ 20 → getBit (putBit f 20 false) i = getBit f i := fun i hi hne => by
    rw [getBit_putBit _ _ _ _ (by decide) hi, if_neg hne]
  have hvx : getBit v 2 = vxOf v := by
    rw [hv 2 (by decide) (by decide)]
    exact vxOf_congr fun i hi h0 h1 h2 hr => by simp [hv i hi h0, h20 i hi hr, h1, h2, hr]
  have hfex : getBit v 1 = fexOf v := by
    rw [hv 1 (by decide) (by decide)]
    refine fexOf_congr fun i hi h0 h1 hr => ?_
    rw [hv i hi h0, getBit_putBit _ _ _ _ (by decide) hi, h20 i hi hr, if_neg h1, if_neg hr]
  exact ⟨hv 20 (by decide) (by decide), hvx.trans (vxOf_eq v), hfex⟩

/-- Settling keeps FX and every exception bit that is 1 (R26). -/
theorem sticky_of_settledFrom {f v : Word} (h : SettledFrom f v) {b : Nat} (hb : b = 0 ∨ ExceptionBit b)
    (h1 : getBit f b = true) : getBit v b = true := by
  have hb32 : b < 32 := by omega
  have hfix : getBit (fixSummary f) b = true := by
    rw [getBit_fixSummary _ _ hb32, if_neg (by omega), if_neg (by omega), if_neg (by omega), h1]
  obtain rfl | ⟨h0, fx, rfl⟩ := h
  · exact hfix
  · have hne : b ≠ 0 := by
      rintro rfl
      simp [h0] at h1
    rw [getBit_putBit _ _ _ _ (by decide) hb32, if_neg hne, hfix]

theorem settledFrom_setFpscrImplicitFx (s : State) (f : Word) :
    SettledFrom f (s.setFpscrImplicitFx (fixSummary f)).fpscr := by
  have h0 : getBit (fixSummary f) 0 = getBit f 0 := getBit_fixSummary f 0 (by decide)
  obtain h | ⟨-, hfx, ⟨-, h⟩ | ⟨-, h⟩⟩ := s.setFpscrImplicitFx_cases (fixSummary f) <;> rw [h]
  · exact .inl rfl
  · exact .inr ⟨h0.symm.trans hfx, true, rfl⟩
  · exact .inr ⟨h0.symm.trans hfx, anyBit s.draws, rfl⟩

/-! ### The status registers -/

/-- The registers whose bits R20, R26 to R29, R40 to R43, R49 and R54 rule one by one. -/
structure Status where
  fpscr : Word
  xer : Word
  msr : Word
  decReq : Bool

/-- The status registers of `s`. -/
def State.status (s : State) : Status := { fpscr := s.fpscr, xer := s.xer, msr := s.msr, decReq := s.decReq }

/-- The ways in which an instruction that raises nothing may leave the status registers: only those listed write one, and
an FPSCR move always does. CA and OV are left open, since no rule about the step depends on their values. -/
inductive StatusEffect (s : State) : Instr → Status → Prop where
  | kept {i : Instr} (hi : movedFpscr i s = none) : StatusEffect s i s.status
  | fpscrMove {i : Instr} {f v : Word} (hi : movedFpscr i s = some f) (hv : SettledFrom f v) :
    StatusEffect s i { s.status with fpscr := v }
  | addicDot (rD rA : Reg) (simm : Int) (ca : Bool) :
    StatusEffect s (.addicDot rD rA simm) { s.status with xer := withCa s.xer ca }
  | subfc (rD rA rB : Reg) (oe rc ca ov : Bool) :
    StatusEffect s (.subfc rD rA rB oe rc)
      { s.status with xer := if oe then withOv (withCa s.xer ca) ov else withCa s.xer ca }
  | mcrxr (crfD : FieldNo) : StatusEffect s (.mcrxr crfD) { s.status with xer := putNibble s.xer 0 0#4 }
  | mtsprXer (rS : Reg) : StatusEffect s (.mtspr 1 rS) { s.status with xer := s.gpr rS &&& xerMask }
  | mtsprDec (rS : Reg) :
    StatusEffect s (.mtspr 22 rS)
      { s.status with decReq := s.decReq || (!getBit s.dec 0 && getBit (s.gpr rS) 0) }
  | mtsprEeRi {n : Nat} (rS : Reg) (ee ri : Bool) (hn : n = 80 ∨ n = 81 ∨ n = 82) :
    StatusEffect s (.mtspr n rS) { s.status with msr := putBit (putBit s.msr 16 ee) 30 ri }
  | mtmsr (rS : Reg) : StatusEffect s (.mtmsr rS) { s.status with msr := s.gpr rS &&& msrMask }
  | rfi : StatusEffect s .rfi { s.status with msr := (s.msr &&& 0x00010000#32) ||| (s.srr1 &&& 0x0000FF43#32) }

/-- mtspr writes a status register through SPR 1, 22, 80, 81 and 82 only (R62). -/
theorem writeSpr_statusEffect {n : Nat} {rS : Reg} {s t : State} (h : writeSpr n (s.gpr rS) s = .next t) :
    StatusEffect s (.mtspr n rS) t.status := by
  obtain ⟨rfl, rfl⟩ | ⟨-, rfl⟩ | ⟨-, rfl⟩ | ⟨-, rfl⟩ | ⟨-, rfl⟩ | ⟨rfl, rfl⟩ | ⟨-, rfl⟩ | ⟨-, rfl⟩ | ⟨rfl, rfl⟩ |
    ⟨rfl, rfl⟩ | ⟨rfl, rfl⟩ | ⟨k, -, rfl⟩ | ⟨-, rfl⟩ | ⟨-, rfl⟩ := writeSpr_eq_next h
  · exact .mtsprXer rS
  · exact .kept rfl
  · exact .kept rfl
  · exact .kept rfl
  · exact .kept rfl
  · exact .mtsprDec rS
  · exact .kept rfl
  · exact .kept rfl
  · exact .mtsprEeRi rS true true (.inl rfl)
  · exact .mtsprEeRi rS false true (.inr (.inl rfl))
  · exact .mtsprEeRi rS false false (.inr (.inr rfl))
  · exact .kept rfl
  · exact .kept rfl
  · exact .kept rfl

/-- A move that fixes FX explicitly or by R203 settles the FPSCR it supplies, and writes no other status register. -/
theorem settleFx_statusEffect {i : Instr} {s : State} {f : Word} {p : Prop} [Decidable p]
    (hi : movedFpscr i s = some f) : StatusEffect s i
      (if p then { s with fpscr := fixSummary f } else s.setFpscrImplicitFx (fixSummary f)).status := by
  split
  · exact .fpscrMove hi (.inl rfl)
  · have hv := settledFrom_setFpscrImplicitFx s f
    have hs : (s.setFpscrImplicitFx (fixSummary f)).status =
        { s.status with fpscr := (s.setFpscrImplicitFx (fixSummary f)).fpscr } := by
      obtain h | ⟨-, -, ⟨-, h⟩ | ⟨-, h⟩⟩ := s.setFpscrImplicitFx_cases (fixSummary f) <;> rw [h] <;> rfl
    rw [hs]
    exact .fpscrMove hi hv

/-- What an instruction that raises nothing does to the status registers. -/
theorem exec_statusEffect {i : Instr} {s t : State} (hn : syncException i s = none) (h : exec i s = .next t) :
    StatusEffect s i t.status := by
  cases i with
  | cmp | cmpi | cmpl | cmpli | addi | andiDot | andisDot | mfcr | mtcrf | mcrf | crand | cror | crxor | crnand | crnor
  | creqv | crandc | crorc =>
    obtain ⟨-, rfl⟩ := advance_eq_next.mp h
    exact .kept rfl
  | addicDot rD rA simm =>
    obtain ⟨-, rfl⟩ := advance_eq_next.mp h
    exact .addicDot rD rA simm _
  | subfc rD rA rB oe rc =>
    obtain ⟨-, rfl⟩ := advance_eq_next.mp h
    cases rc
    · exact .subfc rD rA rB oe false _ _
    · exact .subfc rD rA rB oe true _ _
  | mcrxr crfD =>
    obtain ⟨-, rfl⟩ := advance_eq_next.mp h
    exact .mcrxr crfD
  | b | bc | bclr | bcctr =>
    obtain ⟨lr, ctr, pc, rfl, -⟩ := exec_isBranch rfl h
    exact .kept rfl
  | lwz =>
    obtain ⟨v, rfl⟩ := eq_of_exec_lwz h
    exact .kept rfl
  | sc => cases hn
  | rfi =>
    cases effect_of_unraised hn h
    exact .rfi
  | mfmsr rD =>
    obtain ⟨-, rfl⟩ := advance_eq_next.mp (effect_of_unraised hn h)
    exact .kept rfl
  | mtmsr rS =>
    obtain ⟨-, rfl⟩ := advance_eq_next.mp (effect_of_unraised hn h)
    exact .mtmsr rS
  | mfspr | mftb =>
    obtain ⟨v, -, h⟩ := andThen_eq_next.mp (effect_of_unraised hn h)
    obtain ⟨-, rfl⟩ := advance_eq_next.mp h
    exact .kept rfl
  | mtspr n rS =>
    obtain ⟨u, hu, h⟩ := andThen_eq_next.mp (effect_of_unraised hn h)
    obtain ⟨-, rfl⟩ := advance_eq_next.mp h
    change StatusEffect s (.mtspr n rS) u.status
    exact writeSpr_statusEffect hu
  | mffs frD rc =>
    obtain ⟨-, rfl⟩ := advance_eq_next.mp (effect_of_unraised hn h)
    cases rc <;> exact .kept rfl
  | mcrfs | mtfsb0 | mtfsb1 =>
    cases eq_of_finishFpscr_eq_next (effect_of_unraised hn h)
    exact .fpscrMove rfl (.inl rfl)
  | mtfsf | mtfsfi =>
    cases eq_of_finishFpscr_eq_next (effect_of_unraised hn h)
    exact settleFx_statusEffect rfl

/-! ### The condition register -/

/-- mtspr reaches neither the CR nor the pc (R62). -/
theorem writeSpr_cr_pc {n : Nat} {v : Word} {s t : State} (h : writeSpr n v s = .next t) :
    t.cr = s.cr ∧ t.pc = s.pc := by
  obtain ⟨-, rfl⟩ | ⟨-, rfl⟩ | ⟨-, rfl⟩ | ⟨-, rfl⟩ | ⟨-, rfl⟩ | ⟨-, rfl⟩ | ⟨-, rfl⟩ | ⟨-, rfl⟩ | ⟨-, rfl⟩ | ⟨-, rfl⟩ |
    ⟨-, rfl⟩ | ⟨k, -, rfl⟩ | ⟨-, rfl⟩ | ⟨-, rfl⟩ := writeSpr_eq_next h <;> exact ⟨rfl, rfl⟩

theorem settleFx_cr_pc {s : State} {f : Word} {p : Prop} [Decidable p] :
    (if p then { s with fpscr := f } else s.setFpscrImplicitFx f).cr = s.cr ∧
      (if p then { s with fpscr := f } else s.setFpscrImplicitFx f).pc = s.pc := by
  split
  · exact ⟨rfl, rfl⟩
  · obtain h | ⟨-, -, ⟨-, h⟩ | ⟨-, h⟩⟩ := s.setFpscrImplicitFx_cases f <;> rw [h] <;> exact ⟨rfl, rfl⟩

/-- A write of field `k` leaves the bits of the other fields (R35). -/
theorem getBit_putNibble_of_ne {v : Word} {k : Fin 8} {x : BitVec 4} {b : BitNo} (hb : ¬ b.val / 4 = k.val) :
    getBit (putNibble v k x) b.val = getBit v b.val := by
  rw [getBit_putNibble _ _ _ _ b.isLt, if_neg hb]

/-- A write of bit `d` leaves the other bits. -/
theorem getBit_putBit_of_ne {v : Word} {d b : BitNo} {x : Bool} (hb : ¬ b.val = d.val) :
    getBit (putBit v d.val x) b.val = getBit v b.val := by
  rw [getBit_putBit _ _ _ _ d.isLt b.isLt, if_neg hb]

/-- Recording a field or not, as Rc says, leaves the bits of the other fields (R178, R212). -/
theorem getBit_recorded_of_ne {v : Word} {k : Fin 8} {x : BitVec 4} {b : BitNo} {rc : Bool}
    (hb : ¬ (rc = true ∧ b.val / 4 = k.val)) : getBit (if rc then putNibble v k x else v) b.val = getBit v b.val := by
  cases rc
  · rfl
  · exact getBit_putNibble_of_ne fun h => hb ⟨rfl, h⟩

/-- An instruction that raises nothing leaves every bit of the CR that it does not write in one of the ways of R36. -/
theorem exec_cr {i : Instr} {s t : State} (hn : syncException i s = none) (h : exec i s = .next t) {b : BitNo}
    (hb : ¬ WritesCrBit i b.val) : getBit t.cr b.val = getBit s.cr b.val := by
  cases i with
  | cmp | cmpi | cmpl | cmpli | mcrf | mcrxr | addicDot | andiDot | andisDot =>
    obtain ⟨-, rfl⟩ := advance_eq_next.mp h
    exact getBit_putNibble_of_ne hb
  | crand | cror | crxor | crnand | crnor | creqv | crandc | crorc =>
    obtain ⟨-, rfl⟩ := advance_eq_next.mp h
    exact getBit_putBit_of_ne hb
  | mtcrf crm rS =>
    obtain ⟨-, rfl⟩ := advance_eq_next.mp h
    exact (getBit_putFields _ _ _ _ b.isLt).trans (if_neg hb)
  | subfc rD rA rB oe rc =>
    obtain ⟨-, rfl⟩ := advance_eq_next.mp h
    cases rc
    · rfl
    · exact getBit_putNibble_of_ne fun h => hb ⟨rfl, h⟩
  | addi | mfcr =>
    obtain ⟨-, rfl⟩ := advance_eq_next.mp h
    rfl
  | b | bc | bclr | bcctr =>
    obtain ⟨lr, ctr, pc, rfl, -⟩ := exec_isBranch rfl h
    rfl
  | lwz =>
    obtain ⟨v, rfl⟩ := eq_of_exec_lwz h
    rfl
  | sc => cases hn
  | rfi =>
    cases effect_of_unraised hn h
    rfl
  | mfmsr | mtmsr =>
    obtain ⟨-, rfl⟩ := advance_eq_next.mp (effect_of_unraised hn h)
    rfl
  | mfspr | mftb =>
    obtain ⟨v, -, h⟩ := andThen_eq_next.mp (effect_of_unraised hn h)
    obtain ⟨-, rfl⟩ := advance_eq_next.mp h
    rfl
  | mtspr n rS =>
    obtain ⟨u, hu, h⟩ := andThen_eq_next.mp (effect_of_unraised hn h)
    obtain ⟨-, rfl⟩ := advance_eq_next.mp h
    change getBit u.cr b.val = getBit s.cr b.val
    rw [(writeSpr_cr_pc hu).1]
  | mffs frD rc =>
    obtain ⟨-, rfl⟩ := advance_eq_next.mp (effect_of_unraised hn h)
    cases rc
    · rfl
    · exact getBit_putNibble_of_ne fun h => hb ⟨rfl, h⟩
  | mcrfs =>
    cases eq_of_finishFpscr_eq_next (effect_of_unraised hn h)
    exact getBit_putNibble_of_ne hb
  | mtfsb0 | mtfsb1 =>
    cases eq_of_finishFpscr_eq_next (effect_of_unraised hn h)
    exact getBit_recorded_of_ne hb
  | mtfsf fm frB rc | mtfsfi crfD imm rc =>
    cases eq_of_finishFpscr_eq_next (effect_of_unraised hn h)
    exact (getBit_recorded_of_ne (k := 1) (rc := rc) hb).trans (congrArg (getBit · b.val) settleFx_cr_pc.1)

end Sys2Proof.Machine
end

section
/-! The fall-through: an instruction that does not jump ends by advancing the pc, and does the same at every pc but the
last word (R63). -/

namespace Sys2Proof.Machine

open Sys2Proof.Config

theorem advance_at_lastWord {s : State} (h : s.pc = lastWord) : advance s = .refused .pcWrap := by
  rw [advance, if_pos h]

/-- `r` and `r'` are runs of one instruction from the pcs `p` and `q`: the same stop before the fall-through, or both
come to it at the pc they began with. -/
def EndAlike (p q : Word) (r r' : Result State) : Prop :=
  (∃ o, r = .refused o ∧ r' = .refused o) ∨ ∃ a a', a.pc = p ∧ a'.pc = q ∧ r = advance a ∧ r' = advance a'

section
variable {p q : Word} {r r' : Result State} {a a' : State}

theorem endAlike_advance (ha : a.pc = p) (ha' : a'.pc = q) : EndAlike p q (advance a) (advance a') :=
  .inr ⟨a, a', ha, ha', rfl, rfl⟩

theorem endAlike_refused (o : Refusal) : EndAlike p q (.refused o) (.refused o) := .inl ⟨o, rfl, rfl⟩

theorem endAlike_andThen {α : Type} {o : Result α} {k k' : α → Result State}
    (h : ∀ x, o = .next x → EndAlike p q (k x) (k' x)) : EndAlike p q (andThen o k) (andThen o k') := by
  cases o with
  | next x => exact h x rfl
  | fault f => cases f
  | refused o => exact endAlike_refused o

theorem endAlike_ite {c : Prop} [Decidable c] {x x' : Result State} (h : c → EndAlike p q r r')
    (hx : ¬ c → EndAlike p q x x') : EndAlike p q (if c then r else x) (if c then r' else x') := by
  split
  · exact h ‹_›
  · exact hx ‹_›

/-- An FPSCR move tests only the FPSCR and the MSR. -/
theorem endAlike_finishFpscr (rc : Bool) (ha : a.pc = p) (ha' : a' = { a with pc := q }) :
    EndAlike p q (finishFpscr rc a) (finishFpscr rc a') := by
  subst ha'
  exact endAlike_ite (fun _ => endAlike_refused _) fun _ => by cases rc <;> exact endAlike_advance ha rfl

theorem endAlike_finishBranch (lk : Bool) {taken : Bool} (target target' : Word) (ht : taken = false) (ha : a.pc = p)
    (ha' : a'.pc = q) : EndAlike p q (finishBranch lk taken target a) (finishBranch lk taken target' a') := by
  subst ht
  cases lk <;> exact endAlike_advance ha ha'

theorem endAlike_unlessRaised {i : Instr} {s s' : State} (hn : syncException i s = none)
    (hn' : syncException i s' = none) (h : EndAlike p q r r') :
    EndAlike p q (unlessRaised i s r) (unlessRaised i s' r') := by
  rwa [unlessRaised_of_none hn, unlessRaised_of_none hn']

/-- A run that answers a next state moved the pc to the next word. -/
theorem pc_of_endAlike {t : State} (h : EndAlike p q r r') (ht : r = .next t) : p ≠ lastWord ∧ t.pc = p + 4#32 := by
  obtain ⟨o, rfl, -⟩ | ⟨a, -, rfl, -, rfl, -⟩ := h
  · cases ht
  · obtain ⟨hne, rfl⟩ := advance_eq_next.mp ht
    exact ⟨hne, rfl⟩

/-- From the last word a run is refused for its fall-through where one from another pc completes. -/
theorem refused_of_endAlike {u : State} (h : EndAlike lastWord q r r') (hu : r' = .next u) : r = .refused .pcWrap := by
  obtain ⟨o, -, rfl⟩ | ⟨a, -, ha, -, rfl, -⟩ := h
  · cases hu
  · exact advance_at_lastWord ha

end

/-- The exceptions and the settled FX of an instruction do not depend on the pc. -/
theorem syncException_setPc (i : Instr) (s : State) (q : Word) :
    syncException i { s with pc := q } = syncException i s := by
  cases i <;> rfl

/-- Fixing FX, explicitly or by R203, does not depend on the pc. -/
theorem settleFx_setPc (p : Prop) [Decidable p] (s : State) (f q : Word) :
    (if p then { s with fpscr := f, pc := q } else State.setFpscrImplicitFx { s with pc := q } f) =
      { (if p then { s with fpscr := f } else s.setFpscrImplicitFx f) with pc := q } := by
  simp only [State.setFpscrImplicitFx]
  split
  · rfl
  · split
    · split <;> rfl
    · rfl

/-- What mtspr writes does not depend on the pc. -/
theorem andThen_writeSpr_setPc (n : Nat) (v : Word) (s : State) (q : Word) (k : State → Result State) :
    andThen (writeSpr n v { s with pc := q }) k = andThen (writeSpr n v s) fun u => k { u with pc := q } := by
  unfold writeSpr
  split
  case h_19 => split <;> rfl
  all_goals rfl

/-- `i` sets the pc itself: rfi, b, and the other branches where they are taken (R253, R269 to R273). -/
def Jumps (i : Instr) (s : State) : Prop :=
  match i with
  | .rfi => True
  | .b _ _ _ => True
  | .bc bo bi _ _ _ => BranchCondition bo bi s
  | .bclr bo bi _ => BranchCondition bo bi s
  | .bcctr bo bi _ => BranchCondition bo bi s
  | _ => False

theorem condOk_iff {s : State} {bo : BitVec 5} {bi : BitNo} :
    s.condOk bo bi = true ↔ bo.getMsbD 0 = true ∨ getBit s.cr bi.val = bo.getMsbD 1 := by
  simp [State.condOk, State.crBit]

theorem ctrOk_iff {s : State} {bo : BitVec 5} :
    s.ctrOk bo = true ↔ bo.getMsbD 2 = true ∨ (ctrAfter bo s = 0#32 ↔ bo.getMsbD 3 = true) := by
  have e : s.countedCtr bo = ctrAfter bo s := rfl
  simp only [State.ctrOk, e, Bool.or_eq_true]
  refine or_congr_right ?_
  by_cases hc : ctrAfter bo s = 0#32 <;> cases bo.getMsbD 3 <;> simp [hc]

/-- Whether bc and bclr branch is the condition of R269. -/
theorem branchTaken_iff {s : State} {bo : BitVec 5} {bi : BitNo} :
    s.branchTaken bo bi = true ↔ BranchCondition bo bi s := by
  rw [State.branchTaken, Bool.and_eq_true, ctrOk_iff, condOk_iff, BranchCondition]

theorem branchTaken_eq_false {s : State} {bo : BitVec 5} {bi : BitNo} (h : ¬ BranchCondition bo bi s) :
    s.branchTaken bo bi = false := by
  rwa [← Bool.not_eq_true, branchTaken_iff]

/-- An instruction that neither raises nor jumps does the same from every pc, up to the fall-through (R63). -/
theorem exec_endAlike {i : Instr} {s : State} (q : Word) (hn : syncException i s = none) (hj : ¬ Jumps i s) :
    EndAlike s.pc q (exec i s) (exec i { s with pc := q }) := by
  have hn' : syncException i { s with pc := q } = none := (syncException_setPc i s q).trans hn
  cases i with
  | cmp | cmpi | cmpl | cmpli | addi | andiDot | andisDot | mfcr | mtcrf | mcrf | crand | cror | crxor | crnand | crnor
  | creqv | crandc | crorc | addicDot | mcrxr => exact endAlike_advance rfl rfl
  | subfc rD rA rB oe rc => cases rc <;> exact endAlike_advance rfl rfl
  | b | rfi => exact absurd trivial hj
  | bc bo bi disp aa lk => exact endAlike_finishBranch lk _ _ (branchTaken_eq_false hj) rfl rfl
  | bclr bo bi lk => exact endAlike_finishBranch lk _ _ (branchTaken_eq_false hj) rfl rfl
  | bcctr bo bi lk =>
    refine endAlike_ite (fun h2 => ?_) fun _ => endAlike_refused _
    have hc : s.condOk bo bi = false := by
      rw [← Bool.not_eq_true, condOk_iff]
      exact fun h => hj ⟨.inl h2, h⟩
    exact endAlike_finishBranch lk _ _ hc rfl rfl
  | lwz rD rA d =>
    exact endAlike_ite (fun _ => endAlike_refused _) fun _ => endAlike_andThen fun _ _ => endAlike_advance rfl rfl
  | sc => cases hn
  | mfmsr | mtmsr => exact endAlike_unlessRaised hn hn' (endAlike_advance rfl rfl)
  | mfspr | mftb => exact endAlike_unlessRaised hn hn' (endAlike_andThen fun _ _ => endAlike_advance rfl rfl)
  | mtspr n rS =>
    refine endAlike_unlessRaised hn hn' ?_
    have e := andThen_writeSpr_setPc n (s.gpr rS) s q advance
    rw [show State.gpr { s with pc := q } rS = s.gpr rS from rfl, e]
    exact endAlike_andThen fun u hu => endAlike_advance (writeSpr_cr_pc hu).2 rfl
  | mffs frD rc =>
    refine endAlike_unlessRaised hn hn' ?_
    cases rc <;> exact endAlike_advance rfl rfl
  | mcrfs | mtfsb0 | mtfsb1 => exact endAlike_unlessRaised hn hn' (endAlike_finishFpscr _ rfl rfl)
  | mtfsf | mtfsfi =>
    exact endAlike_unlessRaised hn hn' (endAlike_finishFpscr _ settleFx_cr_pc.2 (settleFx_setPc _ s _ q))

/-- Settles O49: a run that neither raises nor jumps ends as one from any other pc does, by `exec_endAlike`. -/
theorem fallThroughAtLastWordRefused : Obligations.FallThroughAtLastWordRefused := by
  intro s hpc
  constructor
  · intro i hn hrfi hb hbc hbclr hbcctr
    have hj : ¬ Jumps i s := by
      cases i with
      | rfi => exact absurd rfl hrfi
      | b disp aa lk => exact absurd rfl (hb disp aa lk)
      | bc bo bi disp aa lk => exact hbc bo bi disp aa lk rfl
      | bclr bo bi lk => exact hbclr bo bi lk rfl
      | bcctr bo bi lk => exact hbcctr bo bi lk rfl
      | _ => exact id
    have alike : ∀ q, EndAlike lastWord q (exec i s) (exec i { s with pc := q }) := fun q =>
      hpc ▸ exec_endAlike q hn hj
    refine ⟨fun t ht => ?_, fun q u hu => refused_of_endAlike (alike q) hu⟩
    obtain ⟨hne, -⟩ := pc_of_endAlike (alike lastWord) ht
    exact hne rfl
  · intro k q d a b r u v x n crm oe rc i hi
    simp only [List.mem_cons, List.not_mem_nil, or_false] at hi
    rcases hi with rfl | rfl | rfl | rfl | rfl | rfl | rfl | rfl | rfl | rfl | rfl | rfl | rfl | rfl | rfl | rfl | rfl |
      rfl | rfl | rfl | rfl
    on_goal 21 => cases rc
    all_goals exact advance_at_lastWord hpc

end Sys2Proof.Machine
end

section
/-! What a step of any agent can do to the flags, and who writes which of them. -/

namespace Sys2Proof.Machine

open Sys2Proof.Config

/-- The registers that only an instruction's effect writes: no exception, tick, input or reset reaches them. -/
structure Flags where
  cr : Word
  xer : Word
  fpscr : Word

/-- The flags of `s`. -/
def State.flags (s : State) : Flags := { cr := s.cr, xer := s.xer, fpscr := s.fpscr }

theorem State.flags_eq_iff {s t : State} :
    t.flags = s.flags ↔ t.cr = s.cr ∧ t.xer = s.xer ∧ t.fpscr = s.fpscr := by
  simp [State.flags]

/-- The instruction at the pc, run from a state `c` with the flags of `s`, took effect and gave the flags of `t`. -/
def FlagsByInstruction (s t : State) : Prop :=
  ∃ (c u : State) (i : Instr), c.flags = s.flags ∧ s.fetch = .next i ∧ syncException i c = none ∧ exec i c = .next u ∧
    t.flags = u.flags

theorem coreStep_flags {s t : State} (h : coreStep s = .next t) : t.flags = s.flags ∨ FlagsByInstruction s t := by
  obtain ⟨-, -, rfl⟩ | ⟨-, -, -, rfl⟩ | ⟨-, i, hf, hi⟩ := coreStep_eq_next.mp h
  · exact .inl rfl
  · exact .inl rfl
  · obtain ⟨u, hu, rfl⟩ := execTraced_eq_next.mp hi
    have ht : (if traceApplies i s then enter .trace u.pc u else u).flags = u.flags := by split <;> rfl
    cases hn : syncException i s with
    | none => exact .inr ⟨s, u, i, rfl, hf, hn, hu, ht⟩
    | some e =>
      cases (exec_of_raised hn).symm.trans hu
      exact .inl ht

/-- A step leaves the flags, or gives them what the instruction at the pc left in them. -/
theorem step_flags {s t : State} (h : step s = .next t) : t.flags = s.flags ∨ FlagsByInstruction s t := by
  obtain ⟨-, hcore⟩ | ⟨rest, -, hcore⟩ | ⟨rest, -, rfl⟩ | ⟨rest, -, rfl⟩ | ⟨level, rest, -, rfl⟩ | ⟨rest, -, rfl⟩ :=
    step_eq_next.mp h
  · exact coreStep_flags hcore
  · exact coreStep_flags (s := { s with env := rest }) hcore
  all_goals exact .inl rfl

/-! ### Each flag after an instruction -/

theorem fpscr_of_statusEffect {s : State} {i : Instr} {st : Status} (h : StatusEffect s i st) :
    (movedFpscr i s = none ∧ st.fpscr = s.fpscr) ∨ ∃ f, movedFpscr i s = some f ∧ SettledFrom f st.fpscr := by
  cases h with
  | kept hi => exact .inl ⟨hi, rfl⟩
  | fpscrMove hi hv => exact .inr ⟨_, hi, hv⟩
  | _ => exact .inl ⟨rfl, rfl⟩

/-- An FPSCR move that raises nothing settles the FPSCR it supplies. -/
theorem settledFrom_of_exec {i : Instr} {s t : State} {f : Word} (hi : movedFpscr i s = some f)
    (hn : syncException i s = none) (h : exec i s = .next t) : SettledFrom f t.fpscr := by
  obtain ⟨hnone, -⟩ | ⟨g, hg, hv⟩ := fpscr_of_statusEffect (exec_statusEffect hn h)
  · cases hnone.symm.trans hi
  · cases hg.symm.trans hi
    exact hv

/-- Who writes SO and OV: software, and subfc with OE = 1, which makes SO at least OV (R41, R42). -/
theorem xer_of_statusEffect {s : State} {i : Instr} {st : Status} (h : StatusEffect s i st) :
    (getBit st.xer 0 = getBit s.xer 0 ∧ getBit st.xer 1 = getBit s.xer 1) ∨ SoftwareWritesXer i ∨
      ((∃ rD rA rB rc, i = .subfc rD rA rB true rc) ∧ getBit st.xer 0 = (getBit s.xer 0 || getBit st.xer 1)) := by
  have ca_kept : ∀ ca, getBit (withCa s.xer ca) 0 = getBit s.xer 0 ∧ getBit (withCa s.xer ca) 1 = getBit s.xer 1 :=
    fun ca => ⟨getBit_withCa _ _ 0 (by decide), getBit_withCa _ _ 1 (by decide)⟩
  cases h with
  | addicDot rD rA simm ca => exact .inl (ca_kept ca)
  | subfc rD rA rB oe rc ca ov =>
    cases oe
    · exact .inl (ca_kept ca)
    · refine .inr (.inr ⟨⟨rD, rA, rB, rc, rfl⟩, ?_⟩)
      change getBit (withOv (withCa s.xer ca) ov) 0 = (getBit s.xer 0 || getBit (withOv (withCa s.xer ca) ov) 1)
      rw [getBit_withOv _ _ 0 (by decide), getBit_withOv _ _ 1 (by decide), if_pos rfl, if_neg (by decide), if_pos rfl,
        (ca_kept ca).1]
  | mcrxr crfD => exact .inr (.inl (.inr ⟨crfD, rfl⟩))
  | mtsprXer rS => exact .inr (.inl (.inl ⟨rS, rfl⟩))
  | _ => exact .inl ⟨rfl, rfl⟩

/-- Setting a bit clears none. -/
theorem getBit_putBit_true_of_true {v : Word} {d : Nat} {b : BitNo} (hd : d < 32) (hv : getBit v b.val = true) :
    getBit (putBit v d true) b.val = true := by
  rw [getBit_putBit _ _ _ _ hd b.isLt, hv, ite_self]

theorem getBit_ite_of_both {p : Prop} [Decidable p] {v w : Word} {b : BitNo} (hv : getBit v b.val = true)
    (hw : getBit w b.val = true) : getBit (if p then v else w) b.val = true := by
  split
  · exact hv
  · exact hw

/-- The FPSCR that a move supplies has a sticky bit cleared only where R26 says. -/
theorem clearsFpscrBit_of_moved {i : Instr} {s : State} {f : Word} {b : BitNo} (hi : movedFpscr i s = some f)
    (hs : getBit s.fpscr b.val = true) (hf : getBit f b.val = false) :
    ClearsFpscrBit i b.val := by
  have hne : getBit f b.val ≠ getBit s.fpscr b.val := by simp [hs, hf]
  cases i with
  | mcrfs crfD crfS =>
    cases hi
    by_contra hc
    refine hne ?_
    have hm : getBit (nibbleMask crfS) b.val = false := by
      rw [getBit_nibbleMask _ _ b.isLt]
      exact decide_eq_false hc
    rw [getBit_and, getBit_not _ _ b.isLt, getBit_and, hm]
    simp
  | mtfsf fm frB rc =>
    cases hi
    by_contra hc
    exact hne ((getBit_putFields _ _ _ _ b.isLt).trans (if_neg hc))
  | mtfsfi crfD imm rc =>
    cases hi
    by_contra hc
    exact hne (getBit_putNibble_of_ne hc)
  | mtfsb0 crbD rc =>
    cases hi
    by_contra hc
    refine hne ?_
    split
    · rfl
    · exact getBit_putBit_of_ne hc
  | mtfsb1 crbD rc =>
    simp only [movedFpscr, Option.some.injEq] at hi
    subst hi
    refine absurd (hf.symm.trans ?_) Bool.false_ne_true
    refine getBit_ite_of_both (getBit_putBit_true_of_true (by decide) ?_) ?_ <;>
      exact getBit_ite_of_both hs (getBit_putBit_true_of_true crbD.isLt hs)
  | _ => cases hi

/-! ### The statements about the flags -/

/-- Settles O53: the flags change by the instruction at the pc alone, and that instruction writes bit `b`. -/
theorem crWrittenOnlyAsListed : Obligations.CrWrittenOnlyAsListed := by
  intro s t b h hne
  obtain hkept | ⟨c, u, i, hc, hf, hn, hu, ht⟩ := step_flags h
  · obtain ⟨hcr, -, -⟩ := State.flags_eq_iff.mp hkept
    exact absurd (congrArg (getBit · b.val) hcr) hne
  · obtain ⟨hc, -, -⟩ := State.flags_eq_iff.mp hc
    obtain ⟨ht, -, -⟩ := State.flags_eq_iff.mp ht
    refine ⟨i, hf, by_contra fun hw => hne ?_⟩
    rw [ht, exec_cr hn hu hw, hc]

/-- A step leaves the FPSCR, or gives it what the move at the pc supplies, settled. -/
theorem step_fpscr {s t : State} (h : step s = .next t) :
    t.fpscr = s.fpscr ∨ ∃ (c : State) (i : Instr) (f : Word), c.fpscr = s.fpscr ∧ s.fetch = .next i ∧
      movedFpscr i c = some f ∧ SettledFrom f t.fpscr := by
  obtain hkept | ⟨c, u, i, hc, hf, hn, hu, ht⟩ := step_flags h
  · exact .inl (State.flags_eq_iff.mp hkept).2.2
  · obtain ⟨-, -, hc⟩ := State.flags_eq_iff.mp hc
    obtain ⟨-, -, ht⟩ := State.flags_eq_iff.mp ht
    rw [ht]
    obtain ⟨-, hk⟩ | ⟨f, hi, hv⟩ := fpscr_of_statusEffect (exec_statusEffect hn hu)
    · exact .inl (hk.trans hc)
    · exact .inr ⟨c, i, f, hc, hf, hi, hv⟩

/-- Settles O36: settling an FPSCR clears no sticky bit, so the move at the pc itself supplied the 0. -/
theorem fpscrStickiness : Obligations.FpscrStickiness := by
  intro s t b h hb h1 h0
  obtain hkept | ⟨c, i, f, hc, hf, hi, hv⟩ := step_fpscr h
  · rw [hkept, h1] at h0
    cases h0
  · rw [← hc] at h1
    have hf0 : getBit f b.val = false := by
      rw [← Bool.not_eq_true]
      exact fun hf1 => Bool.false_ne_true (h0.symm.trans (sticky_of_settledFrom hv hb hf1))
    exact ⟨i, hf, clearsFpscrBit_of_moved hi h1 hf0⟩

theorem needsFp_of_fp {s : State} (h : getBit s.msr 18 = true) : needsFp s = none := by
  simp [needsFp, State.fp, h]

/-- The FPSCR moves of file 41 supply an FPSCR, and raise nothing where MSR[FP] = 1 (R200). -/
theorem fpscrMoves_supply {s : State} {k q : FieldNo} {d : BitNo} {r : Reg} {fm : BitVec 8} {imm : BitVec 4} {rc : Bool}
    {i : Instr} (hfp : getBit s.msr 18 = true)
    (hi : i ∈ [Instr.mcrfs k q, .mtfsf fm r rc, .mtfsfi k imm rc, .mtfsb0 d rc, .mtfsb1 d rc]) :
    syncException i s = none ∧ ∃ f, movedFpscr i s = some f := by
  simp only [List.mem_cons, List.not_mem_nil, or_false] at hi
  obtain rfl | rfl | rfl | rfl | rfl := hi <;> exact ⟨needsFp_of_fp hfp, _, rfl⟩

/-- Settles O37: only an FPSCR move writes the FPSCR, and every move settles its summary bits. -/
theorem vxIsTheOr : Obligations.VxIsTheOr := by
  constructor
  · intro s t h hvx
    obtain hkept | ⟨c, i, f, -, -, -, hv⟩ := step_fpscr h
    · rwa [hkept]
    · exact (summaries_of_settledFrom hv).2.1
  · intro s t k q d r fm imm rc i hfp hi h
    obtain ⟨hn, f, hf⟩ := fpscrMoves_supply hfp hi
    exact (summaries_of_settledFrom (settledFrom_of_exec hf hn h)).2.1

/-- The carry out of bit 1 is that of the low 31 bits (R180). -/
theorem carryOut1_iff (a b : Word) :
    carryOut1 a b 1 = true ↔ 2147483648 ≤ a.toNat % 2147483648 + b.toNat % 2147483648 + 1 := by
  have low31 : ∀ v : Word, (v &&& 0x7FFFFFFF#32).toNat = v.toNat % 2147483648 := fun v => by
    rw [BitVec.toNat_and]
    exact Nat.and_two_pow_sub_one_eq_mod v.toNat 31
  rw [carryOut1, exactSum, decide_eq_true_iff, low31, low31, show 2 ^ 31 = 2147483648 from rfl]

theorem overflowOut_iff (a b : Word) :
    overflowOut a b 1 = true ↔
      ¬ (4294967296 ≤ a.toNat + b.toNat + 1 ↔ 2147483648 ≤ a.toNat % 2147483648 + b.toNat % 2147483648 + 1) := by
  have h0 : carryOut0 a b 1 = true ↔ 4294967296 ≤ a.toNat + b.toNat + 1 := decide_eq_true_iff
  rw [← h0, ← carryOut1_iff, overflowOut, bne_iff_ne, ne_eq, Bool.eq_iff_iff]

/-- Settles O47: subfc writes OV as the carries say and ORs it into SO; beside it only software writes either. -/
theorem summaryOverflowAndOverflow : Obligations.SummaryOverflowAndOverflow := by
  constructor
  · intro s rD rA rB rc hpc
    obtain ⟨t, h, hx⟩ : ∃ t, exec (.subfc rD rA rB true rc) s = .next t ∧
        t.xer = withOv (withCa s.xer (carryOut0 (~~~s.gpr rA) (s.gpr rB) 1))
          (overflowOut (~~~s.gpr rA) (s.gpr rB) 1) := by
      cases rc <;> exact ⟨_, advance_of_ne hpc, rfl⟩
    have hov : getBit t.xer 1 = overflowOut (~~~s.gpr rA) (s.gpr rB) 1 := by
      rw [hx, getBit_withOv _ _ 1 (by decide), if_neg (by decide), if_pos rfl]
    refine ⟨t, h, by rw [hov, overflowOut_iff], fun h1 => ?_⟩
    rw [hx, getBit_withOv _ _ 0 (by decide), if_pos rfl, ← hov, h1, Bool.or_true]
  · intro s t h
    obtain hkept | ⟨c, u, i, hc, hf, hn, hu, ht⟩ := step_flags h
    · obtain ⟨-, hx, -⟩ := State.flags_eq_iff.mp hkept
      rw [hx]
      exact ⟨fun hne => absurd rfl hne, fun hne => absurd rfl hne⟩
    · obtain ⟨-, hc, -⟩ := State.flags_eq_iff.mp hc
      obtain ⟨-, ht, -⟩ := State.flags_eq_iff.mp ht
      rw [ht, ← hc]
      obtain ⟨h0, h1⟩ | hsw | ⟨hsub, h0⟩ := xer_of_statusEffect (exec_statusEffect hn hu)
      · exact ⟨fun hne => absurd h0 hne, fun hne => absurd h1 hne⟩
      · exact ⟨fun _ => ⟨i, hf, .inl hsw⟩, fun _ => ⟨i, hf, .inl hsw⟩⟩
      · have hso : getBit u.xer 0 = (getBit c.xer 0 || getBit u.xer 1) := h0
        refine ⟨fun hne => ⟨i, hf, .inr ?_⟩, fun _ => ⟨i, hf, .inr hsub⟩⟩
        cases hold : getBit c.xer 0 with
        | true => simp [hso, hold] at hne
        | false =>
          have hov : getBit u.xer 1 = true := by simpa [hso, hold] using hne
          exact ⟨rfl, hov, hsub⟩

end Sys2Proof.Machine
end

section
/-! The invariant of the machine: each part of it, what an exception entry and an instruction do to it, and the step. -/

namespace Sys2Proof.Machine

open Sys2Proof.Config

/-! ### Decoded instructions are well-formed -/

theorem fld_lt (w : Word) (a b : Nat) : fld w a b < 2 ^ (b + 1 - a) := Nat.mod_lt _ (Nat.two_pow_pos _)

theorem simmOk_simmAt (w : Word) : SimmOk (simmAt w) := by
  have h := fld_lt w 16 31
  simp only [SimmOk, simmAt, sextField]
  split <;> omega

theorem bdOk_bdAt (w : Word) : BdOk (bdAt w) := by
  have h := fld_lt w 16 29
  simp only [BdOk, bdAt, sextField]
  split <;> omega

theorem liOk_liAt (w : Word) : LiOk (liAt w) := by
  have h := fld_lt w 6 29
  simp only [LiOk, liAt, sextField]
  split <;> omega

theorem sprOk_sprAt (w : Word) : SprOk (sprAt w) := by
  have h := fld_lt w 16 20
  have h' := fld_lt w 11 15
  simp only [SprOk, sprAt]
  omega

/-- A row of the opcode map reads well-formed instructions if its term is one. -/
theorem wellFormed_orReserved {z : Bool} {i : Instr} (hi : i.wellFormed = true) :
    ∀ j, orReserved z i = some j → j.wellFormed = true := by
  intro j hj
  cases z <;> cases hj
  exact hi

theorem wellFormed_of_decode19 (w : Word) : ∀ i, decode19 w = some i → i.wellFormed = true := by
  unfold decode19
  split
  case h_13 => exact nofun
  all_goals exact wellFormed_orReserved rfl

theorem wellFormed_of_decode31 (w : Word) : ∀ i, decode31 w = some i → i.wellFormed = true := by
  unfold decode31
  have hspr : decide (SprOk (sprAt w)) = true := decide_eq_true (sprOk_sprAt w)
  split
  case h_2 | h_3 =>
    intro i h
    cases h
    rfl
  case h_9 | h_10 | h_11 => exact wellFormed_orReserved hspr
  case h_13 => exact nofun
  all_goals exact wellFormed_orReserved rfl

theorem wellFormed_of_decode63 (w : Word) : ∀ i, decode63 w = some i → i.wellFormed = true := by
  unfold decode63
  split
  case h_7 => exact nofun
  all_goals exact wellFormed_orReserved rfl

/-- Every word the decoder accepts is read as a well-formed instruction (R141, R143). -/
theorem wellFormed_of_decode (w : Word) : ∀ i, decode w = some i → i.wellFormed = true := by
  have huimm : decide (UimmOk (uimmAt w)) = true := decide_eq_true (fld_lt w 16 31)
  have hsimm : decide (SimmOk (simmAt w)) = true := decide_eq_true (simmOk_simmAt w)
  unfold decode
  split
  case h_1 => exact wellFormed_orReserved huimm
  case h_2 => exact wellFormed_orReserved hsimm
  case h_6 => exact wellFormed_orReserved rfl
  case h_8 => exact wellFormed_of_decode19 w
  case h_11 => exact wellFormed_of_decode31 w
  case h_13 => exact wellFormed_of_decode63 w
  case h_14 => exact nofun
  all_goals
    intro i h
    cases h
  case h_3 | h_4 | h_12 => exact hsimm
  case h_5 => exact decide_eq_true (bdOk_bdAt w)
  case h_7 => exact decide_eq_true (liOk_liAt w)
  case h_9 | h_10 => exact huimm

theorem wellFormed_of_fetch {s : State} {i : Instr} (h : s.fetch = .next i) : i.wellFormed = true := by
  obtain ⟨-, -, rest, hd⟩ := State.fetch_eq_next.mp h
  simp only [Memory.readBytes, decodeBytes] at hd
  split at hd
  · rename_i j hj
    cases hd
    exact wellFormed_of_decode _ _ hj
  · cases hd

/-! ### Reserved bits -/

/-- `v` has no bit outside the mask `m`. -/
def ZeroOutside (m v : Word) : Prop := ∀ i : BitNo, getBit m i.val = false → getBit v i.val = false

section
variable {m v w : Word}

theorem zeroOutside_and_of_mask {k : Word} (hk : ZeroOutside m k) : ZeroOutside m (v &&& k) := fun i hi => by
  rw [getBit_and, hk i hi, Bool.and_false]

theorem zeroOutside_and_mask : ZeroOutside m (v &&& m) := zeroOutside_and_of_mask fun _ hi => hi

theorem zeroOutside_or (hv : ZeroOutside m v) (hw : ZeroOutside m w) : ZeroOutside m (v ||| w) := fun i hi => by
  rw [getBit_or, hv i hi, hw i hi, Bool.or_false]

/-- A write of a bit under the mask writes no bit outside it. -/
theorem zeroOutside_putBit {k : BitNo} {x : Bool} (hk : getBit m k.val = true) (hv : ZeroOutside m v) :
    ZeroOutside m (putBit v k.val x) := fun i hi => by
  rw [getBit_putBit_of_ne, hv i hi]
  intro he
  rw [he, hk] at hi
  cases hi

theorem zeroOutside_clearNibble {k : Fin 8} (hv : ZeroOutside m v) : ZeroOutside m (putNibble v k 0#4) := fun i hi => by
  rw [getBit_putNibble _ _ _ _ i.isLt, hv i hi]
  simp

theorem zeroOutside_withCa {ca : Bool} (hv : ZeroOutside xerMask v) : ZeroOutside xerMask (withCa v ca) :=
  zeroOutside_putBit (k := 2) (by decide) hv

theorem zeroOutside_withOv {ov : Bool} (hv : ZeroOutside xerMask v) : ZeroOutside xerMask (withOv v ov) :=
  zeroOutside_putBit (k := 0) (by decide) (zeroOutside_putBit (k := 1) (by decide) hv)

theorem zeroOutside_entryMsr : ZeroOutside msrMask (entryMsr v) :=
  zeroOutside_putBit (k := 31) (by decide) (zeroOutside_and_of_mask (by unfold ZeroOutside; decide))

theorem zeroOutside_resetMsr (p : Params) : ZeroOutside msrMask (resetMsr p) :=
  zeroOutside_putBit (k := 25) (by decide) (zeroOutside_putBit (k := 19) (by decide) fun i _ => getBit_zero i.val)

end

/-! ### The parts of the invariant -/

/-- The status registers obey R20, R28, R29, R40 and R49. -/
structure StatusOk (st : Status) : Prop where
  msr : ZeroOutside msrMask st.msr
  xer : ZeroOutside xerMask st.xer
  fpscr : getBit st.fpscr 20 = false ∧ VxIsOr st.fpscr ∧ FexIsOr st.fpscr

theorem statusOk_of_inv {s : State} (hs : Inv s) : StatusOk s.status where
  msr := hs.msrReserved
  xer := hs.xerReserved
  fpscr := ⟨hs.fpscrReserved, hs.vx, hs.fex⟩

/-- The invariant of a state with the constants of one that meets it needs only the status registers and the pc. -/
theorem inv_of_parts {s t : State} (hs : Inv s) (hc : t.constants = s.constants) (hst : StatusOk t.status)
    (hpc : t.pc.toNat % 4 = 0) : Inv t := by
  obtain ⟨hmem, hpar, -, -⟩ := State.constants_eq_iff.mp hc
  obtain ⟨hfpscr, hvx, hfex⟩ := hst.fpscr
  exact {
    memory := hmem ▸ hs.memory
    pcAligned := hpc
    msrReserved := hst.msr
    xerReserved := hst.xer
    fpscrReserved := hfpscr
    vx := hvx
    fex := hfex
    params := hpar ▸ hs.params }

theorem vector_aligned {s : State} (hp : ParamsAligned s.par) (e : Exc) : (s.vector e).toNat % 4 = 0 := by
  have hv := hp.vectors e
  have hb : (vectorBase s.ip).toNat % 4 = 0 := by cases s.ip <;> rfl
  rw [State.vector, BitVec.toNat_add]
  omega

theorem inv_enter {s : State} (hs : Inv s) (e : Exc) (a : Word) : Inv (enter e a s) :=
  inv_of_parts hs rfl { statusOk_of_inv hs with msr := zeroOutside_entryMsr } (vector_aligned hs.params e)

theorem statusOk_of_statusEffect {s : State} {i : Instr} {st : Status} (h : StatusEffect s i st)
    (hs : StatusOk s.status) : StatusOk st := by
  have hx : ZeroOutside xerMask s.xer := hs.xer
  have hm : ZeroOutside msrMask s.msr := hs.msr
  cases h with
  | kept => exact hs
  | fpscrMove _ hv => exact { hs with fpscr := summaries_of_settledFrom hv }
  | addicDot => exact { hs with xer := zeroOutside_withCa hx }
  | subfc rD rA rB oe rc ca ov =>
    cases oe
    · exact { hs with xer := zeroOutside_withCa hx }
    · exact { hs with xer := zeroOutside_withOv (zeroOutside_withCa hx) }
  | mcrxr => exact { hs with xer := zeroOutside_clearNibble hx }
  | mtsprXer => exact { hs with xer := zeroOutside_and_mask }
  | mtsprDec => exact { hs with }
  | mtsprEeRi _ _ _ _ =>
    exact { hs with msr := zeroOutside_putBit (k := 30) (by decide) (zeroOutside_putBit (k := 16) (by decide) hm) }
  | mtmsr => exact { hs with msr := zeroOutside_and_mask }
  | rfi =>
    have hile : ZeroOutside msrMask 0x00010000#32 := by unfold ZeroOutside; decide
    have hlow : ZeroOutside msrMask 0x0000FF43#32 := by unfold ZeroOutside; decide
    exact { hs with msr := zeroOutside_or (zeroOutside_and_of_mask hile) (zeroOutside_and_of_mask hlow) }

/-! ### Instructions and steps keep the invariant -/

theorem not_jumps {i : Instr} {s : State} (hb : isBranch i = false) (hr : i ≠ .rfi) : ¬ Jumps i s := by
  cases i with
  | b | bc | bclr | bcctr => cases hb
  | rfi => exact absurd rfl hr
  | _ => exact id

/-- A well-formed instruction that raises nothing takes an aligned pc to an aligned pc (R63). -/
theorem exec_pcAligned {i : Instr} {s t : State} (hw : i.wellFormed = true) (hn : syncException i s = none)
    (h : exec i s = .next t) (hp : s.pc.toNat % 4 = 0) : t.pc.toNat % 4 = 0 := by
  cases hb : isBranch i with
  | true =>
    obtain ⟨lr, ctr, pc, rfl, hpc⟩ := exec_isBranch hb h
    exact hpc hw hp
  | false =>
    by_cases hr : i = .rfi
    · subst hr
      cases effect_of_unraised hn h
      exact dropLowTwo_aligned s.srr0
    · obtain ⟨-, hpc⟩ := pc_of_endAlike (exec_endAlike s.pc hn (not_jumps hb hr)) h
      exact hpc ▸ nextPc_aligned hp

theorem exec_keeps_inv {i : Instr} {s t : State} (hw : i.wellFormed = true) (hs : Inv s) (h : exec i s = .next t) :
    Inv t := by
  cases hn : syncException i s with
  | some e =>
    cases (exec_of_raised hn).symm.trans h
    exact inv_enter hs e _
  | none =>
    exact inv_of_parts hs (exec_answersWith i s t h)
      (statusOk_of_statusEffect (exec_statusEffect hn h) (statusOk_of_inv hs)) (exec_pcAligned hw hn h hs.pcAligned)

theorem coreStep_keeps_inv {s t : State} (hs : Inv s) (h : coreStep s = .next t) : Inv t := by
  obtain ⟨-, -, rfl⟩ | ⟨-, -, -, rfl⟩ | ⟨-, i, hf, hi⟩ := coreStep_eq_next.mp h
  · exact inv_enter hs _ _
  · exact inv_enter hs _ _
  · obtain ⟨u, hu, rfl⟩ := execTraced_eq_next.mp hi
    have hinv : Inv u := exec_keeps_inv (wellFormed_of_fetch hf) hs hu
    split
    · exact inv_enter hinv _ _
    · exact hinv

/-- Settles O54: the core by `coreStep_keeps_inv`; a reset writes aligned and reserved-free values, and the other agents
write no part of the invariant. -/
theorem stepKeepsInv : Obligations.StepKeepsInv := by
  intro s t hs h
  have hst := statusOk_of_inv hs
  obtain ⟨-, hcore⟩ | ⟨rest, -, hcore⟩ | ⟨rest, -, rfl⟩ | ⟨rest, -, rfl⟩ | ⟨level, rest, -, rfl⟩ | ⟨rest, -, rfl⟩ :=
    step_eq_next.mp h
  · exact coreStep_keeps_inv hs hcore
  · exact coreStep_keeps_inv (s := { s with env := rest }) (inv_of_parts hs rfl hst hs.pcAligned) hcore
  · exact inv_of_parts hs rfl hst hs.pcAligned
  · exact inv_of_parts hs rfl { hst with } hs.pcAligned
  · exact inv_of_parts hs rfl hst hs.pcAligned
  · exact inv_of_parts hs rfl { hst with msr := zeroOutside_resetMsr _ } hs.params.resetPc

end Sys2Proof.Machine
end

section
/-! Exception entry as R304 says it, the decrementer's request, and the agents other than the core. -/

namespace Sys2Proof.Machine

open Sys2Proof.Config

/-! ### Exception entry as R304 says it -/

theorem getBit_entryMsr (m : Word) (i : BitNo) :
    getBit (entryMsr m) i.val =
      if i.val = 15 ∨ i.val = 19 ∨ i.val = 25 then getBit m i.val
      else if i.val = 31 then getBit m 15 else false := by
  have hmask : ∀ i : BitNo, getBit entryKeepMask i.val = decide (i.val = 15 ∨ i.val = 19 ∨ i.val = 25) := by decide
  rw [entryMsr, getBit_putBit _ _ _ _ (by decide) i.isLt, getBit_and, hmask]
  by_cases h31 : i.val = 31
  · simp [h31]
  · by_cases hk : i.val = 15 ∨ i.val = 19 ∨ i.val = 25 <;> simp [h31, hk]

/-- Entry saves MSR[16:31] in SRR1[16:31] (R304). -/
theorem getBit_enter_srr1 {e : Exc} {a : Word} {s : State} {i : BitNo} (hi : 16 ≤ i.val) :
    getBit (enter e a s).srr1 i.val = getBit s.readMsr i.val := by
  have hlt : 31 - i.val < 16 := by omega
  rw [enter_srr1, getBit_eq_getLsbD _ _ i.isLt, getBit_eq_getLsbD _ _ i.isLt, BitVec.getLsbD_append]
  simp [hlt]

/-- `enter` is the entry that R304 describes. -/
theorem entersVia_enter (e : Exc) (a : Word) (s : State) : EntersVia e a s (enter e a s) := by
  refine ⟨rfl, fun i hi => getBit_enter_srr1 hi, getBit_entryMsr s.msr, rfl, ?_, ?_⟩
  · rintro rfl
    simp
  · intro p hp
    cases p with
    | srr0 | srr1 | pc | draws => simp at hp
    | msrBit i => exact absurd (.inr (.inr (.inl ⟨i, rfl⟩))) hp
    | decReq =>
      have he : e ≠ .decrementer := by simpa using hp
      simp [Same, he]
    | _ => rfl

/-! ### The decrementer's request -/

theorem decReq_of_statusEffect {s : State} {i : Instr} {st : Status} (h : StatusEffect s i st) (hs : s.decReq = true) :
    st.decReq = true := by
  cases h with
  | mtsprDec => exact Bool.or_eq_true_iff.mpr (.inl hs)
  | _ => exact hs

theorem exec_keeps_decReq {i : Instr} {s t : State} (h : exec i s = .next t) (hs : s.decReq = true) :
    t.decReq = true := by
  cases hn : syncException i s with
  | some e =>
    cases (exec_of_raised hn).symm.trans h
    simp [raise, hs, syncException_ne_decrementer hn]
  | none =>
    exact decReq_of_statusEffect (exec_statusEffect hn h) hs

/-- The core withdraws a pending request only by taking the decrementer's exception (R311). -/
theorem coreStep_decReq {s t : State} (h : coreStep s = .next t) (hs : s.decReq = true) (ht : t.decReq = false) :
    getBit s.msr 16 = true ∧ s.extReq = false ∧ EntersVia .decrementer s.pc s t := by
  obtain ⟨-, -, rfl⟩ | ⟨hee, hext, -, rfl⟩ | ⟨-, i, -, hi⟩ := coreStep_eq_next.mp h
  · simp [hs] at ht
  · exact ⟨hee, hext, entersVia_enter _ _ s⟩
  · obtain ⟨u, hu, rfl⟩ := execTraced_eq_next.mp hi
    have hkept := exec_keeps_decReq hu hs
    split at ht <;> simp [hkept] at ht

/-- Settles O59: a tick only raises the request, and the core withdraws it as `coreStep_decReq` says. -/
theorem decRequestIsNotLost : Obligations.DecRequestIsNotLost := by
  intro s t h hs ht
  obtain ⟨henv, hcore⟩ | ⟨rest, henv, hcore⟩ | ⟨rest, -, rfl⟩ | ⟨rest, -, rfl⟩ | ⟨level, rest, -, rfl⟩ |
    ⟨rest, henv, rfl⟩ := step_eq_next.mp h
  · exact .inl ⟨s, .inl ⟨henv, rfl⟩, coreStep_decReq hcore hs ht⟩
  · exact .inl ⟨_, .inr ⟨rest, henv, rfl⟩, coreStep_decReq hcore hs ht⟩
  · cases hs.symm.trans ht
  · simp [hs] at ht
  · cases hs.symm.trans ht
  · exact .inr ⟨rest, henv⟩

/-! ### The other agents -/

theorem getBit_zero_eq_msb (v : Word) : getBit v 0 = decide (2147483648 ≤ v.toNat) := by
  rw [getBit, ← BitVec.msb_eq_getMsbD_zero, BitVec.msb_eq_decide]

/-- Counting down changes bit 0 from zero to one exactly at 0 (R54). -/
theorem decTick_signals (v : Word) : (!getBit v 0 && getBit (v - 1#32) 0) = decide (v.toNat = 0) := by
  have hv := v.isLt
  have hsub : (v - 1#32).toNat = (4294967295 + v.toNat) % 4294967296 := BitVec.toNat_sub v 1#32
  rw [getBit_zero_eq_msb, getBit_zero_eq_msb, hsub, Bool.eq_iff_iff]
  simp only [Bool.and_eq_true, Bool.not_eq_true', decide_eq_false_iff_not, decide_eq_true_eq]
  omega

theorem step_tbTick {s : State} {rest : List EnvStep} (h : s.env = .tbTick :: rest) :
    step s = .next { s with env := rest }.tbTick := by
  simp only [step, cycle, h]

theorem step_decTick {s : State} {rest : List EnvStep} (h : s.env = .decTick :: rest) :
    step s = .next { s with env := rest }.decTick := by
  simp only [step, cycle, h]

theorem step_extIrq {s : State} {level : Bool} {rest : List EnvStep} (h : s.env = .extIrq level :: rest) :
    step s = .next { s with env := rest, extReq := level } := by
  simp only [step, cycle, h]

/-- Settles O11: each agent's move is one update of the state, and the rest of the state stands. -/
theorem otherAgentsMove : Obligations.OtherAgentsMove := by
  refine ⟨fun s rest h => ⟨_, step_tbTick h, ?_, rfl, ?_⟩, fun s rest h => ⟨_, step_decTick h, ?_, ?_, rfl, ?_⟩,
    fun s level rest h => ⟨_, step_extIrq h, rfl, rfl, ?_⟩⟩
  · exact BitVec.toNat_add s.tb 1#64
  · intro p hp
    cases p with
    | tbu | tbl | env => simp at hp
    | _ => rfl
  · have hv := s.dec.isLt
    have hsub : (s.dec - 1#32).toNat = (4294967295 + s.dec.toNat) % 4294967296 := BitVec.toNat_sub s.dec 1#32
    rw [State.decTick_dec, hsub]
    omega
  · rw [State.decTick_decReq, decTick_signals, Bool.or_eq_true, decide_eq_true_iff]
  · intro p hp
    cases p with
    | dec | decReq | env => simp at hp
    | _ => rfl
  · intro p hp
    cases p with
    | extReq | env => simp at hp
    | _ => rfl

end Sys2Proof.Machine
end

section
/-! The moves between a GPR or FPR and XER, MSR, PVR and FPSCR, and the reserved fields of these registers (R20). -/

namespace Sys2Proof.Machine

open Sys2Proof.Config

/-! ### The moves of the special registers -/

theorem exec_mfspr_of_readSpr {s : State} {rD : Reg} {n : Nat} {v : Word} (hn : syncException (.mfspr rD n) s = none)
    (hv : readSpr n s = .next v) (hpc : s.pc ≠ lastWord) :
    exec (.mfspr rD n) s = .next { s.setGpr rD v with pc := s.pc + 4#32 } := by
  simp only [exec, execMfspr, unlessRaised_of_none hn, hv, andThen_next]
  exact advance_of_ne hpc

theorem exec_mtspr_of_writeSpr {s u : State} {n : Nat} {rS : Reg} (hn : syncException (.mtspr n rS) s = none)
    (hu : writeSpr n (s.gpr rS) s = .next u) (hpc : u.pc ≠ lastWord) :
    exec (.mtspr n rS) s = .next { u with pc := u.pc + 4#32 } := by
  simp only [exec, execMtspr, unlessRaised_of_none hn, hu, andThen_next]
  exact advance_of_ne hpc

/-- The XER is moved at either level (R162). -/
theorem syncException_xer (r : Reg) (s : State) :
    syncException (.mfspr r 1) s = none ∧ syncException (.mtspr 1 r) s = none := by
  have h1 : privilegedSpr 1 = false := by decide
  simp [syncException, privilegedAccess, h1, emulatedRead]

theorem privileged_of_supervisor {s : State} (h : getBit s.msr 17 = false) : privileged s = none := by
  simp [privileged, State.pr, h]

/-- Settles O52: the constants hold the PVR, so no step changes it. -/
theorem pvrIsReadOnly : Obligations.PvrIsReadOnly := by
  refine ⟨fun s rD hpc hpr => ?_, fun s rD r hpr => ?_, fun s t h => ?_⟩
  · have hn : syncException (.mfspr rD 287) s = none := by
      simp [syncException, privilegedAccess, State.pr, hpr, emulatedRead]
    exact ⟨_, exec_mfspr_of_readSpr hn rfl hpc, State.gpr_setGpr_same s rD s.pvr⟩
  · have hn : syncException (.mfspr rD 287) s = some .program := by
      have h287 : privilegedSpr 287 = true := by decide
      simp [syncException, privilegedAccess, State.pr, hpr, h287]
    exact ⟨_, exec_of_raised hn, rfl⟩
  · obtain ⟨-, -, -, hpvr⟩ := State.constants_eq_iff.mp (step_constants h)
    exact hpvr

/-! ### Reserved fields -/

/-- The reserved bits of the XER (R20, R40). -/
abbrev XerReserved (i : Nat) : Prop := (3 ≤ i ∧ i ≤ 15) ∨ i = 24

/-- The reserved bits of the MSR (R20, R49). -/
abbrev MsrReserved (i : Nat) : Prop := i ≤ 14 ∨ i = 24 ∨ (26 ≤ i ∧ i ≤ 29)

theorem getBit_and_xerMask_reserved (v : Word) (i : BitNo) (hi : XerReserved i.val) :
    getBit (v &&& xerMask) i.val = false := by
  have hm : ∀ i : BitNo, XerReserved i.val → getBit xerMask i.val = false := by decide
  rw [getBit_and, hm i hi, Bool.and_false]

theorem getBit_and_xerMask_kept (v : Word) (i : BitNo) (hi : 16 ≤ i.val ∧ i.val ≤ 23) :
    getBit (v &&& xerMask) i.val = getBit v i.val := by
  have hm : ∀ i : BitNo, (16 ≤ i.val ∧ i.val ≤ 23) → getBit xerMask i.val = true := by decide
  rw [getBit_and, hm i hi, Bool.and_true]

theorem getBit_and_msrMask_reserved (v : Word) (i : BitNo) (hi : MsrReserved i.val) :
    getBit (v &&& msrMask) i.val = false := by
  have hm : ∀ i : BitNo, MsrReserved i.val → getBit msrMask i.val = false := by decide
  rw [getBit_and, hm i hi, Bool.and_false]

theorem getBit_putNibble_at (v : Word) (k : Fin 8) (x : BitVec 4) (j : Nat) (hj : j < 4) :
    getBit (putNibble v k x) (4 * k.val + j) = x.getMsbD j := by
  rw [← getMsbD_getNibble _ _ _ hj, getNibble_putNibble_same]

/-- Bits 32 to 63 of two words side by side are the second (R208). -/
theorem getMsbD_append_low (a b : Word) (i : Nat) : (a ++ b).getMsbD (32 + i) = getBit b i := by
  rw [BitVec.getMsbD_append, if_pos (Nat.le_add_right 32 i), getBit, Nat.add_sub_cancel_left]

theorem exec_mffs_of_fp {s : State} (r : Reg) (rc : Bool) (hfp : getBit s.msr 18 = true) (hpc : s.pc ≠ lastWord) :
    ∃ t, exec (.mffs r rc) s = .next t ∧ t.fpr r = anyWord s.draws ++ s.fpscr := by
  have hn : syncException (.mffs r rc) s = none := needsFp_of_fp hfp
  simp only [exec, execMffs, unlessRaised_of_none hn]
  cases rc <;> exact ⟨_, advance_of_ne hpc, State.fpr_setFpr_same s r _⟩

/-- mcrfs copies the field as it was before it clears it (R202). -/
theorem cr_of_exec_mcrfs {k q : FieldNo} {s t : State} (hn : syncException (.mcrfs k q) s = none)
    (h : exec (.mcrfs k q) s = .next t) : t.cr = putNibble s.cr k (getNibble s.fpscr q) := by
  cases eq_of_finishFpscr_eq_next (effect_of_unraised hn h)
  rfl

/-- Settles O51: the writes mask the reserved bits, the reads mask them or read a register of the invariant. -/
theorem reservedFields : Obligations.ReservedFields := by
  intro s r hs hpc
  refine ⟨?mtspr, ?mfspr, fun crfD => ?mcrxr, fun hpr => ?msr,
    fun hfp => ⟨fun rc => ?mffs, ?moves, fun k t h => ?mcrfs⟩⟩
  case mtspr =>
    exact ⟨_, exec_mtspr_of_writeSpr (syncException_xer r s).2 rfl hpc, getBit_and_xerMask_reserved (s.gpr r),
      getBit_and_xerMask_kept (s.gpr r)⟩
  case mfspr =>
    refine ⟨_, exec_mfspr_of_readSpr (syncException_xer r s).1 rfl hpc, ?_⟩
    have hr : State.gpr { s.setGpr r s.readXer with pc := s.pc + 4#32 } r = s.xer &&& xerMask :=
      State.gpr_setGpr_same s r s.readXer
    rw [hr]
    exact ⟨getBit_and_xerMask_reserved s.xer, getBit_and_xerMask_kept s.xer⟩
  case mcrxr =>
    refine ⟨_, advance_of_ne hpc, ?_⟩
    change getBit (putNibble s.cr crfD (getNibble s.readXer 0)) (4 * crfD.val + 3) = false
    rw [getBit_putNibble_at _ _ _ _ (by decide), getMsbD_getNibble _ _ _ (by decide)]
    exact getBit_and_xerMask_reserved s.xer 3 (by decide)
  case msr =>
    have hmt : syncException (.mtmsr r) s = none := privileged_of_supervisor hpr
    have hmf : syncException (.mfmsr r) s = none := privileged_of_supervisor hpr
    refine ⟨⟨_, (unlessRaised_of_none hmt).trans (advance_of_ne hpc), getBit_and_msrMask_reserved (s.gpr r)⟩,
      ⟨_, (unlessRaised_of_none hmf).trans (advance_of_ne hpc), ?_⟩⟩
    have hr : State.gpr { s.setGpr r s.readMsr with pc := s.pc + 4#32 } r = s.msr &&& msrMask :=
      State.gpr_setGpr_same s r s.readMsr
    intro i hi
    exact (congrArg (getBit · i.val) hr).trans (getBit_and_msrMask_reserved s.msr i hi)
  case mffs =>
    obtain ⟨t, h, ht⟩ := exec_mffs_of_fp r rc hfp hpc
    refine ⟨t, h, ?_⟩
    rw [ht, getMsbD_append_low _ _ 20, hs.fpscrReserved]
  case moves =>
    intro k q d fm imm rc i t hi h
    obtain ⟨hn, f, hf⟩ := fpscrMoves_supply hfp hi
    exact (summaries_of_settledFrom (settledFrom_of_exec hf hn h)).1
  case mcrfs =>
    have hcr := cr_of_exec_mcrfs (needsFp_of_fp hfp) h
    have hbit := getBit_putNibble_at s.cr k (getNibble s.fpscr 5) 0 (by decide)
    rw [hcr, ← Nat.add_zero (4 * k.val), hbit, getMsbD_getNibble _ _ _ (by decide)]
    exact hs.fpscrReserved

end Sys2Proof.Machine
end

section
/-! The memory map, the fetch and the memory primitives: what the map of R111 allows, when a core step is refused before it
executes (R103, R111, R144), and what a store leaves to be read (R109, R111). -/

namespace Sys2Proof.Machine

open Sys2Proof.Config

/-! ### The memory map -/

/-- The permission of a region that an access of kind `k` asks for (R111). -/
def accessFlag : Access → Region → Bool
  | .read => Region.mayRead
  | .write => Region.mayWrite
  | .fetch => Region.mayFetch

theorem allows_iff {r : Region} {k : Access} {a : Nat} :
    allows r k a = true ↔ r.first ≤ a ∧ a < r.limit ∧ accessFlag k r = true := by
  cases k <;> simp [allows, accessFlag, and_assoc]

theorem State.mapped_iff {s : State} {k : Access} {a : Nat} :
    s.mapped k a = true ↔ ∃ r ∈ s.par.memMap, r.first ≤ a ∧ a < r.limit ∧ accessFlag k r = true := by
  simp [State.mapped, allows_iff]

theorem accessible_iff_mapped {s : State} {k : Access} {a : Word} {n : Nat} :
    Accessible (accessFlag k) a n s ↔ ∀ j, j < n → s.mapped k ((a.toNat + j) % 4294967296) = true := by
  simp only [Accessible, State.mapped_iff]

/-- The addresses after the first are those from the next word on, modulo 2^32 (R111). -/
theorem toNat_succ_add_mod (a : Word) (j : Nat) :
    ((a + 1#32).toNat + j) % 4294967296 = (a.toNat + (j + 1)) % 4294967296 := by
  simp only [BitVec.toNat_add, BitVec.toNat_ofNat]
  omega

theorem toNat_add_zero_mod (a : Word) : (a.toNat + 0) % 4294967296 = a.toNat := Nat.mod_eq_of_lt a.isLt

theorem State.mappedAll_iff {s : State} {k : Access} {a : Word} {n : Nat} :
    s.mappedAll k a n = true ↔ Accessible (accessFlag k) a n s := by
  rw [accessible_iff_mapped]
  induction n generalizing a with
  | zero => simp [State.mappedAll]
  | succ n ih =>
    rw [State.mappedAll, Bool.and_eq_true, ih, Nat.forall_lt_succ_left, toNat_add_zero_mod]
    simp only [toNat_succ_add_mod]

theorem State.mappedAll_eq_false_iff {s : State} {k : Access} {a : Word} {n : Nat} :
    s.mappedAll k a n = false ↔ ¬ Accessible (accessFlag k) a n s := by
  rw [← State.mappedAll_iff, Bool.not_eq_true]

theorem accessible_one_iff {s : State} {k : Access} {a : Word} :
    Accessible (accessFlag k) a 1 s ↔ s.mapped k a.toNat = true := by
  simp [accessible_iff_mapped, Nat.mod_eq_of_lt a.isLt]

/-- A range meets no address open to fetch exactly if none of its bytes may be fetched (R109). -/
theorem State.fetchable_eq_false_iff {s : State} {a : Word} {n : Nat} :
    s.fetchable a n = false ↔ ∀ j, j < n → ¬ Accessible (accessFlag .fetch) (a + BitVec.ofNat 32 j) 1 s := by
  induction n generalizing a with
  | zero => simp [State.fetchable]
  | succ n ih =>
    have hnext : ∀ j, a + 1#32 + BitVec.ofNat 32 j = a + BitVec.ofNat 32 (j + 1) := fun j => by
      rw [BitVec.add_assoc, BitVec.ofNat_add, BitVec.add_comm (1#32)]
    rw [State.fetchable, Bool.or_eq_false_iff, ih, Nat.forall_lt_succ_left, BitVec.add_zero, accessible_one_iff,
      Bool.not_eq_true]
    simp only [hnext]

/-! ### The fetch -/

theorem Memory.readBytes_four (m : Memory) (a : Word) :
    Memory.readBytes m a 4 =
      [Memory.read m a.toNat, Memory.read m (a + 1#32).toNat, Memory.read m (a + 2#32).toNat,
        Memory.read m (a + 3#32).toNat] := by
  simp [Memory.readBytes, BitVec.add_assoc]

/-- The decoder reads from the four bytes at `a` what it reads from the word there (R102, R130). -/
theorem decodeBytes_readBytes_four (s : State) (a : Word) :
    decodeBytes (Memory.readBytes s.mem a 4) =
      (decode (wordAt a s)).elim (.error .instructionNotInSpec) (fun i => .ok (i, [])) := by
  rw [Memory.readBytes_four, decodeBytes, ← wordAt]
  cases decode (wordAt a s) <;> rfl

theorem State.memRead_of_not_accessible {s : State} {k : Access} {a : Word} {n : Nat} (hle : s.le = false)
    (ha : ¬ Accessible (accessFlag k) a n s) : s.memRead k a n = .refused .unmappedAccess := by
  simp [State.memRead, hle, State.mappedAll_eq_false_iff.mpr ha]

theorem State.memRead_of_accessible {s : State} {k : Access} {a : Word} {n : Nat} (hle : s.le = false)
    (ha : Accessible (accessFlag k) a n s) : s.memRead k a n = .next (Memory.readBytes s.mem a n) :=
  State.memRead_eq_next.mpr ⟨hle, State.mappedAll_iff.mpr ha, rfl⟩

theorem State.fetch_of_not_accessible {s : State} (hle : s.le = false)
    (ha : ¬ Accessible Region.mayFetch s.pc 4 s) : s.fetch = .refused .unmappedAccess := by
  rw [State.fetch, State.memRead_of_not_accessible (k := .fetch) hle ha, andThen]

theorem State.fetch_of_not_decoded {s : State} (hle : s.le = false) (ha : Accessible Region.mayFetch s.pc 4 s)
    (hd : decode (wordAt s.pc s) = none) : s.fetch = .refused .instructionNotInSpec := by
  rw [State.fetch, State.memRead_of_accessible (k := .fetch) hle ha, andThen_next, decodeBytes_readBytes_four, hd]
  rfl

/-! ### Where a core step is refused before it executes -/

theorem step_of_coreMoves {s c : State} (h : CoreMoves s c) : step s = coreStep c := by
  obtain ⟨henv, rfl⟩ | ⟨rest, henv, rfl⟩ := h <;> simp only [step, cycle, henv]

theorem coreStep_of_noInterrupt {s : State} (h : NoInterrupt s) :
    coreStep s =
      if s.le then .refused .littleEndianMode else andThen s.fetch (fun i => execTraced i s) := by
  obtain hee | ⟨hext, hdec⟩ := h
  · simp [coreStep, hee]
  · simp [coreStep, hext, hdec]

/-- With no interrupt and in big-endian mode, a refusal of the fetch is the step's. -/
theorem coreStep_of_fetch_refused {s : State} {r : Refusal} (h : NoInterrupt s) (hle : s.le = false)
    (hf : s.fetch = .refused r) : coreStep s = .refused r := by
  simp [coreStep_of_noInterrupt h, hle, hf, andThen]

/-- Settles O9: the mode is tested before the fetch, and the fetch asks the map before it decodes. -/
theorem stepStops : Obligations.StepStops := by
  intro s c hmoves hquiet
  rw [step_of_coreMoves hmoves]
  refine ⟨fun hle => ?littleEndian, fun hle ha => ?unmapped, fun hle ha hd => ?unlisted⟩
  case littleEndian => exact (coreStep_of_noInterrupt hquiet).trans (if_pos hle)
  case unmapped => exact coreStep_of_fetch_refused hquiet hle (State.fetch_of_not_accessible hle ha)
  case unlisted => exact coreStep_of_fetch_refused hquiet hle (State.fetch_of_not_decoded hle ha hd)

/-! ### Reading after a store -/

/-- A byte that a store does not reach reads as before (R111). -/
theorem Memory.read_writeBytes_outside {m : Memory} {a : Word} {vs : List Byte} {b : Nat} (hm : Memory.wf m = true)
    (hb : ∀ j, j < vs.length → b ≠ (a.toNat + j) % 4294967296) :
    Memory.read (Memory.writeBytes m a vs) b = Memory.read m b := by
  induction vs generalizing m a with
  | nil => rfl
  | cons v rest ih =>
    rw [List.length_cons, Nat.forall_lt_succ_left, toNat_add_zero_mod] at hb
    obtain ⟨hfirst, hrest⟩ := hb
    simp only [← toNat_succ_add_mod] at hrest
    rw [Memory.writeBytes, ih (Memory.write_wf hm a.isLt) hrest, Memory.read_write hm, if_neg hfirst]

/-- Bytes stored read back in order, if they do not wrap onto the first of them (R111). -/
theorem Memory.readBytes_writeBytes {m : Memory} {a : Word} {vs : List Byte} (hm : Memory.wf m = true)
    (hlen : vs.length ≤ 4294967296) : Memory.readBytes (Memory.writeBytes m a vs) a vs.length = vs := by
  induction vs generalizing m a with
  | nil => rfl
  | cons v rest ih =>
    rw [List.length_cons] at hlen
    have hm' : Memory.wf (Memory.write m a.toNat v) = true := Memory.write_wf hm a.isLt
    have houtside : ∀ j, j < rest.length → a.toNat ≠ ((a + 1#32).toNat + j) % 4294967296 := fun j hj => by
      have ha := a.isLt
      rw [toNat_succ_add_mod]
      omega
    have hfirst : Memory.read (Memory.writeBytes (Memory.write m a.toNat v) (a + 1#32) rest) a.toNat = v := by
      rw [Memory.read_writeBytes_outside hm' houtside, Memory.read_write hm, if_pos rfl]
    rw [Memory.writeBytes, List.length_cons, Memory.readBytes, hfirst, ih hm' (by omega)]

/-- The first byte of a word is its most significant (R102). -/
theorem toNat_firstByte (v : Word) : (v.extractLsb' 24 8).toNat = v.toNat / 16777216 := by
  have hv := v.isLt
  rw [BitVec.extractLsb'_toNat, Nat.shiftRight_eq_div_pow]
  omega

theorem bigEndian_bytesOfWord (v : Word) : bigEndian (bytesOfWord v) = v.toNat := by
  have hv := v.isLt
  simp only [bigEndian, bytesOfWord, List.foldl_cons, List.foldl_nil, BitVec.extractLsb'_toNat,
    Nat.shiftRight_eq_div_pow]
  omega

theorem accessible_mono {may : Region → Bool} {a : Word} {m n : Nat} {s : State} (hmn : m ≤ n)
    (h : Accessible may a n s) : Accessible may a m s := fun j hj => h j (hj.trans_le hmn)

/-- When the store primitive answers, and what (R103, R109, R111). -/
theorem State.memWrite_word_eq_next {s t : State} {a v : Word} :
    s.memWrite a (bytesOfWord v) = .next t ↔
      (getBit s.msr 31 = false ∧ Accessible Region.mayWrite a 4 s ∧
        ∀ j, j < 4 → ¬ Accessible Region.mayFetch (a + BitVec.ofNat 32 j) 1 s) ∧
      t = { s with mem := Memory.writeBytes s.mem a (bytesOfWord v) } := by
  rw [State.memWrite_eq_next, State.mappedAll_iff, State.fetchable_eq_false_iff, and_assoc, and_assoc]
  exact Iff.rfl

/-- Settles O50: the store is `Memory.writeBytes` under the conditions of `State.memWrite_word_eq_next`, and what it wrote
reads back by `Memory.readBytes_writeBytes`. -/
theorem storedWordReadsBack : Obligations.StoredWordReadsBack := by
  intro s a v hwf
  refine ⟨⟨fun ⟨t, h⟩ => (State.memWrite_word_eq_next.mp h).1,
    fun h => ⟨_, State.memWrite_word_eq_next.mpr ⟨h, rfl⟩⟩⟩, fun t h => ?_⟩
  obtain ⟨⟨hle, -, -⟩, rfl⟩ := State.memWrite_word_eq_next.mp h
  have hfour : Memory.readBytes (Memory.writeBytes s.mem a (bytesOfWord v)) a 4 = bytesOfWord v :=
    Memory.readBytes_writeBytes hwf (show 4 ≤ 4294967296 by decide)
  refine ⟨fun hread => ⟨⟨_, State.memRead_of_accessible hle hread, ?word⟩,
    ⟨_, State.memRead_of_accessible hle (accessible_mono (by decide) hread), ?byte⟩⟩, fun p hp => ?frame⟩
  case word => exact (congrArg bigEndian hfour).trans (bigEndian_bytesOfWord v)
  case byte =>
    obtain ⟨hfirst, -⟩ := List.cons.inj hfour
    rw [Memory.readBytes, hfirst, ← toNat_firstByte]
    exact Nat.zero_add _
  case frame =>
    cases p with
    | memByte b => exact Memory.read_writeBytes_outside hwf fun j hj hb => hp ⟨j, hj, congrArg Part.memByte hb⟩
    | _ => rfl

end Sys2Proof.Machine
end

section
/-! The encoding as a list of fields: words that hold given fields, the fields of each instruction, and the encoder's word as
the only one that holds them (R130 to R142). -/

namespace Sys2Proof.Machine

/-! ### Words that hold given fields -/

/-- The word `w` holds the listed fields one after another from bit `p` on: each is a width and a value (R7, R131). -/
def HasFields (w : Word) : Nat → List (Nat × Nat) → Prop
  | _, [] => True
  | p, (n, v) :: rest => fld w p (p + n - 1) = v ∧ HasFields w (p + n) rest

@[simp] theorem hasFields_nil {w : Word} {p : Nat} : HasFields w p [] := trivial

@[simp] theorem hasFields_cons {w : Word} {p n v : Nat} {rest : List (Nat × Nat)} :
    HasFields w p ((n, v) :: rest) ↔ fld w p (p + n - 1) = v ∧ HasFields w (p + n) rest := Iff.rfl

/-- The sum of the fields' values, each in its place from bit `p` on: what the encoder adds up. -/
def packFields : Nat → List (Nat × Nat) → Nat
  | _, [] => 0
  | p, (n, v) :: rest => ins (p + n - 1) v + packFields (p + n) rest

/-- The fields fill the word from bit `p` to bit 31, and each value fits its width. -/
def FillsWord : Nat → List (Nat × Nat) → Prop
  | p, [] => p = 32
  | p, (n, v) :: rest => 0 < n ∧ v < 2 ^ n ∧ FillsWord (p + n) rest

theorem FillsWord.le {p : Nat} {fs : List (Nat × Nat)} (h : FillsWord p fs) : p ≤ 32 := by
  induction fs generalizing p with
  | nil => exact Nat.le_of_eq h
  | cons f rest ih =>
    obtain ⟨-, -, hrest⟩ := h
    exact (Nat.le_add_right p _).trans (ih hrest)

/-- The place of the first of several fields, counted from the word's least significant bit. -/
theorem FillsWord.place {p n v : Nat} {rest : List (Nat × Nat)} (h : FillsWord p ((n, v) :: rest)) :
    31 - (p + n - 1) = 32 - (p + n) ∧ 32 - p = 32 - (p + n) + n := by
  obtain ⟨hn, -, hrest⟩ := h
  have hle := hrest.le
  omega

theorem packFields_lt {p : Nat} {fs : List (Nat × Nat)} (h : FillsWord p fs) : packFields p fs < 2 ^ (32 - p) := by
  induction fs generalizing p with
  | nil => exact Nat.two_pow_pos _
  | cons f rest ih =>
    obtain ⟨n, v⟩ := f
    obtain ⟨hplace, hwidth⟩ := h.place
    obtain ⟨-, hv, hrest⟩ := h
    rw [packFields, ins, hplace, hwidth, Nat.pow_add, Nat.mul_comm (2 ^ _)]
    calc v * 2 ^ (32 - (p + n)) + packFields (p + n) rest
        < v * 2 ^ (32 - (p + n)) + 2 ^ (32 - (p + n)) := Nat.add_lt_add_left (ih hrest) _
      _ = (v + 1) * 2 ^ (32 - (p + n)) := (Nat.succ_mul v _).symm
      _ ≤ 2 ^ n * 2 ^ (32 - (p + n)) := Nat.mul_le_mul_right _ hv

/-- Fields that fill the word from bit `p` on add up to the word's part from bit `p` on exactly if it holds them: the first
field is the quotient, and the others the remainder, by the power of two at its place. -/
theorem packFields_eq_iff {w : Word} {p : Nat} {fs : List (Nat × Nat)} (h : FillsWord p fs) :
    packFields p fs = w.toNat % 2 ^ (32 - p) ↔ HasFields w p fs := by
  induction fs generalizing p with
  | nil =>
    cases h
    simp [packFields, Nat.mod_one]
  | cons f rest ih =>
    obtain ⟨n, v⟩ := f
    obtain ⟨hplace, hwidth⟩ := h.place
    obtain ⟨hn, -, hrest⟩ := h
    have hhigh : w.toNat % 2 ^ (32 - p) / 2 ^ (32 - (p + n)) = fld w p (p + n - 1) := by
      rw [hwidth, Nat.pow_add, Nat.mod_mul_right_div_self, fld, hplace, show p + n - 1 + 1 - p = n by omega]
    have hlow : w.toNat % 2 ^ (32 - p) % 2 ^ (32 - (p + n)) = w.toNat % 2 ^ (32 - (p + n)) := by
      rw [hwidth, Nat.pow_add, Nat.mod_mul_right_mod]
    rw [hasFields_cons, ← ih hrest, ← hhigh, ← hlow, eq_comm (a := packFields (p + n) rest),
      Nat.div_mod_unique (Nat.two_pow_pos _), and_iff_left (packFields_lt hrest), packFields, ins, hplace, Nat.add_comm,
      Nat.mul_comm]

/-! ### The fields of each instruction -/

/-- The fields of an instruction's word from bit 0 on, reserved bits included (R135 to R142). -/
def layout : Instr → List (Nat × Nat)
  | .cmpli crfD rA uimm => [(6, 10), (3, crfD), (2, 0), (5, rA), (16, uimm % 65536)]
  | .cmpi crfD rA simm => [(6, 11), (3, crfD), (2, 0), (5, rA), (16, signField 16 simm)]
  | .addicDot rD rA simm => [(6, 13), (5, rD), (5, rA), (16, signField 16 simm)]
  | .addi rD rA simm => [(6, 14), (5, rD), (5, rA), (16, signField 16 simm)]
  | .bc bo bi disp aa lk =>
    [(6, 16), (5, bo.toNat), (5, bi), (14, signField 14 (disp / 4)), (1, aa.toNat), (1, lk.toNat)]
  | .sc => [(6, 17), (24, 0), (1, 1), (1, 0)]
  | .b disp aa lk => [(6, 18), (24, signField 24 (disp / 4)), (1, aa.toNat), (1, lk.toNat)]
  | .mcrf crfD crfS => [(6, 19), (3, crfD), (2, 0), (3, crfS), (7, 0), (10, 0), (1, 0)]
  | .bclr bo bi lk => [(6, 19), (5, bo.toNat), (5, bi), (5, 0), (10, 16), (1, lk.toNat)]
  | .crnor crbD crbA crbB => [(6, 19), (5, crbD), (5, crbA), (5, crbB), (10, 33), (1, 0)]
  | .rfi => [(6, 19), (15, 0), (10, 50), (1, 0)]
  | .crandc crbD crbA crbB => [(6, 19), (5, crbD), (5, crbA), (5, crbB), (10, 129), (1, 0)]
  | .crxor crbD crbA crbB => [(6, 19), (5, crbD), (5, crbA), (5, crbB), (10, 193), (1, 0)]
  | .crnand crbD crbA crbB => [(6, 19), (5, crbD), (5, crbA), (5, crbB), (10, 225), (1, 0)]
  | .crand crbD crbA crbB => [(6, 19), (5, crbD), (5, crbA), (5, crbB), (10, 257), (1, 0)]
  | .creqv crbD crbA crbB => [(6, 19), (5, crbD), (5, crbA), (5, crbB), (10, 289), (1, 0)]
  | .crorc crbD crbA crbB => [(6, 19), (5, crbD), (5, crbA), (5, crbB), (10, 417), (1, 0)]
  | .cror crbD crbA crbB => [(6, 19), (5, crbD), (5, crbA), (5, crbB), (10, 449), (1, 0)]
  | .bcctr bo bi lk => [(6, 19), (5, bo.toNat), (5, bi), (5, 0), (10, 528), (1, lk.toNat)]
  | .andiDot rA rS uimm => [(6, 28), (5, rS), (5, rA), (16, uimm % 65536)]
  | .andisDot rA rS uimm => [(6, 29), (5, rS), (5, rA), (16, uimm % 65536)]
  | .cmp crfD rA rB => [(6, 31), (3, crfD), (2, 0), (5, rA), (5, rB), (10, 0), (1, 0)]
  | .subfc rD rA rB oe rc => [(6, 31), (5, rD), (5, rA), (5, rB), (1, oe.toNat), (9, 8), (1, rc.toNat)]
  | .mfcr rD => [(6, 31), (5, rD), (10, 0), (10, 19), (1, 0)]
  | .cmpl crfD rA rB => [(6, 31), (3, crfD), (2, 0), (5, rA), (5, rB), (10, 32), (1, 0)]
  | .mfmsr rD => [(6, 31), (5, rD), (10, 0), (10, 83), (1, 0)]
  | .mtcrf crm rS => [(6, 31), (5, rS), (1, 0), (8, crm.toNat), (1, 0), (10, 144), (1, 0)]
  | .mtmsr rS => [(6, 31), (5, rS), (10, 0), (10, 146), (1, 0)]
  | .mfspr rD n => [(6, 31), (5, rD), (5, n % 32), (5, n / 32 % 32), (10, 339), (1, 0)]
  | .mftb rD n => [(6, 31), (5, rD), (5, n % 32), (5, n / 32 % 32), (10, 371), (1, 0)]
  | .mtspr n rS => [(6, 31), (5, rS), (5, n % 32), (5, n / 32 % 32), (10, 467), (1, 0)]
  | .mcrxr crfD => [(6, 31), (3, crfD), (12, 0), (10, 512), (1, 0)]
  | .lwz rD rA d => [(6, 32), (5, rD), (5, rA), (16, signField 16 d)]
  | .mtfsb1 crbD rc => [(6, 63), (5, crbD), (10, 0), (10, 38), (1, rc.toNat)]
  | .mcrfs crfD crfS => [(6, 63), (3, crfD), (2, 0), (3, crfS), (7, 0), (10, 64), (1, 0)]
  | .mtfsb0 crbD rc => [(6, 63), (5, crbD), (10, 0), (10, 70), (1, rc.toNat)]
  | .mtfsfi crfD imm rc => [(6, 63), (3, crfD), (7, 0), (4, imm.toNat), (1, 0), (10, 134), (1, rc.toNat)]
  | .mffs frD rc => [(6, 63), (5, frD), (10, 0), (10, 583), (1, rc.toNat)]
  | .mtfsf fm frB rc => [(6, 63), (1, 0), (8, fm.toNat), (1, 0), (5, frB), (10, 711), (1, rc.toNat)]

theorem signField_lt (n : Nat) (x : Int) : signField n x < 2 ^ n := by
  have hlt := Int.emod_lt_of_pos x (show (0 : Int) < 2 ^ n by positivity)
  have hcast : ((2 ^ n : Nat) : Int) = 2 ^ n := Nat.cast_pow 2 n
  unfold signField
  omega

/-- Each layout is 32 bits wide, and each operand fits its field: the bounds are those of the operands' types. -/
theorem fillsWord_layout (i : Instr) : FillsWord 0 (layout i) := by
  have hbit : ∀ x : Bool, x.toNat ≤ 1 := Bool.toNat_le
  have hbo : ∀ x : BitVec 5, x.toNat < 32 := BitVec.isLt
  have himm : ∀ x : BitVec 4, x.toNat < 16 := BitVec.isLt
  have hmask : ∀ x : BitVec 8, x.toNat < 256 := BitVec.isLt
  have hsimm : ∀ x, signField 16 x < 65536 := signField_lt 16
  have hbd : ∀ x, signField 14 x < 16384 := signField_lt 14
  have hli : ∀ x, signField 24 x < 16777216 := signField_lt 24
  cases i <;> simp [layout, FillsWord, Nat.mod_lt, *]

/-- The encoder adds up the fields, form by form; a zero beside an operand is a factor of its value there. -/
theorem encodeNat_eq_packFields (i : Instr) : encodeNat i = packFields 0 (layout i) := by
  cases i with
  | cmpli | cmpi | addicDot | addi | andiDot | andisDot | lwz =>
    simp [encodeNat, formD, layout, packFields, ins, Nat.add_assoc, Nat.mul_assoc]
  | bc | sc | b | mtcrf | mtfsf => simp [encodeNat, layout, packFields, ins, Nat.add_assoc]
  | mfspr | mftb | mtspr => simp [encodeNat, formSpr, formX, layout, packFields, ins, Nat.add_assoc]
  | subfc => simp [encodeNat, formX, layout, packFields, ins, Nat.add_assoc, Nat.add_mul, Nat.mul_assoc]
  | _ => simp [encodeNat, formX, layout, packFields, ins, Nat.add_assoc, Nat.mul_assoc]

/-- The encoder's word is the only one with the fields of the instruction. -/
theorem encode_eq_iff (i : Instr) (w : Word) : encode i = w ↔ HasFields w 0 (layout i) := by
  have hfills := fillsWord_layout i
  rw [← packFields_eq_iff hfills, encode, encodeNat_eq_packFields, ← BitVec.toNat_inj, BitVec.toNat_ofNat,
    Nat.mod_eq_of_lt (packFields_lt hfills), Nat.mod_eq_of_lt w.isLt]

end Sys2Proof.Machine
end

section
/-! The decoder: what each reading of an operand says of its field, and the instruction that a word decodes to as the
well-formed one whose fields the word holds (R130 to R145). -/

namespace Sys2Proof.Machine

/-! ### The decoder's readings of a field -/

@[simp] theorem fld_mod {w : Word} {a b m : Nat} (h : 2 ^ (b + 1 - a) = m) : fld w a b % m = fld w a b :=
  h ▸ Nat.mod_eq_of_lt (fld_lt w a b)

@[simp] theorem val_regAt (w : Word) (a : Nat) : (regAt w a : Nat) = fld w a (a + 4) :=
  fld_mod (by rw [show a + 4 + 1 - a = 5 by omega]; rfl)

@[simp] theorem val_bitNoAt (w : Word) (a : Nat) : (bitNoAt w a : Nat) = fld w a (a + 4) := val_regAt w a

@[simp] theorem val_fieldNoAt (w : Word) (a : Nat) : (fieldNoAt w a : Nat) = fld w a (a + 2) :=
  fld_mod (by rw [show a + 2 + 1 - a = 3 by omega]; rfl)

@[simp] theorem toNat_flagAt (w : Word) (a : Nat) : (flagAt w a).toNat = fld w a a := by
  have h := fld_lt w a a
  rw [Nat.add_sub_cancel_left] at h
  unfold flagAt
  obtain h0 | h1 : fld w a a = 0 ∨ fld w a a = 1 := by omega
  · simp [h0]
  · simp [h1]

/-- The sign extension of a field and the field of a signed value are inverse to each other (R141). -/
theorem signField_sextField {n v : Nat} (hv : v < 2 ^ n) : signField n (sextField n v) = v := by
  have hcast : ((2 ^ n : Nat) : Int) = 2 ^ n := Nat.cast_pow 2 n
  unfold signField sextField
  split
  · rw [Int.emod_eq_of_lt] <;> omega
  · rw [Int.sub_emod_right, Int.emod_eq_of_lt] <;> omega

/-- The other composition, on the values that a field of `n` bits can hold. -/
theorem sextField_signField {n : Nat} {x : Int} (hn : 0 < n) (hlo : -2 ^ (n - 1) ≤ x) (hhi : x < 2 ^ (n - 1)) :
    sextField n (signField n x) = x := by
  have hpow : (2 : Int) ^ n = 2 ^ (n - 1) * 2 := by rw [← Int.pow_succ, Nat.succ_eq_add_one, Nat.sub_add_cancel hn]
  have hcast : ((2 ^ (n - 1) : Nat) : Int) = 2 ^ (n - 1) := Nat.cast_pow 2 (n - 1)
  unfold sextField signField
  generalize hm : (2 : Int) ^ (n - 1) = m at *
  rw [hpow]
  obtain hx | hx := lt_or_ge x 0
  · rw [← Int.add_emod_right, Int.emod_eq_of_lt (by omega) (by omega), if_neg (by omega)]
    omega
  · rw [Int.emod_eq_of_lt hx (by omega), if_pos (by omega)]
    omega

@[simp] theorem signField_simmAt (w : Word) : signField 16 (simmAt w) = fld w 16 31 :=
  signField_sextField (fld_lt w 16 31)

@[simp] theorem signField_bdAt (w : Word) : signField 14 (bdAt w / 4) = fld w 16 29 := by
  rw [bdAt, Int.mul_ediv_cancel _ (by decide), signField_sextField (fld_lt w 16 29)]

@[simp] theorem signField_liAt (w : Word) : signField 24 (liAt w / 4) = fld w 6 29 := by
  rw [liAt, Int.mul_ediv_cancel _ (by decide), signField_sextField (fld_lt w 6 29)]

@[simp] theorem uimmAt_mod (w : Word) : uimmAt w % 65536 = fld w 16 31 := fld_mod rfl

@[simp] theorem sprAt_mod (w : Word) : sprAt w % 32 = fld w 11 15 := by
  rw [sprAt, Nat.mul_add_mod_self_right, fld_mod (by rfl)]

@[simp] theorem sprAt_div_mod (w : Word) : sprAt w / 32 % 32 = fld w 16 20 := by
  have hlow : fld w 11 15 / 32 = 0 := Nat.div_eq_of_lt (fld_lt w 11 15)
  rw [sprAt, Nat.mul_comm, Nat.mul_add_div (by decide), hlow, Nat.add_zero, fld_mod (by rfl)]

section
variable {w : Word}

@[simp] theorem regAt_eq_iff {r : Reg} {a : Nat} : regAt w a = r ↔ fld w a (a + 4) = r := by
  rw [← Fin.val_inj, val_regAt]

@[simp] theorem bitNoAt_eq_iff {r : BitNo} {a : Nat} : bitNoAt w a = r ↔ fld w a (a + 4) = r := regAt_eq_iff

@[simp] theorem fieldNoAt_eq_iff {r : FieldNo} {a : Nat} : fieldNoAt w a = r ↔ fld w a (a + 2) = r := by
  rw [← Fin.val_inj, val_fieldNoAt]

@[simp] theorem flagAt_eq_iff {b : Bool} {a : Nat} : flagAt w a = b ↔ fld w a a = b.toNat := by
  rw [← toNat_flagAt]
  cases flagAt w a <;> cases b <;> decide

theorem simmAt_eq_iff {x : Int} : simmAt w = x ↔ SimmOk x ∧ fld w 16 31 = signField 16 x := by
  refine ⟨fun h => h ▸ ⟨simmOk_simmAt w, (signField_simmAt w).symm⟩, fun ⟨⟨hlo, hhi⟩, h⟩ => ?_⟩
  rw [simmAt, h, sextField_signField (by decide) hlo (by omega)]

theorem bdAt_eq_iff {x : Int} : bdAt w = x ↔ BdOk x ∧ fld w 16 29 = signField 14 (x / 4) := by
  refine ⟨fun h => h ▸ ⟨bdOk_bdAt w, (signField_bdAt w).symm⟩, fun ⟨⟨hlo, hhi, h4⟩, h⟩ => ?_⟩
  rw [bdAt, h, sextField_signField (by decide) (by omega) (by omega), Int.ediv_mul_cancel (Int.dvd_of_emod_eq_zero h4)]

theorem liAt_eq_iff {x : Int} : liAt w = x ↔ LiOk x ∧ fld w 6 29 = signField 24 (x / 4) := by
  refine ⟨fun h => h ▸ ⟨liOk_liAt w, (signField_liAt w).symm⟩, fun ⟨⟨hlo, hhi, h4⟩, h⟩ => ?_⟩
  rw [liAt, h, sextField_signField (by decide) (by omega) (by omega), Int.ediv_mul_cancel (Int.dvd_of_emod_eq_zero h4)]

theorem uimmAt_eq_iff {x : Nat} : uimmAt w = x ↔ UimmOk x ∧ fld w 16 31 = x % 65536 :=
  ⟨fun h => h ▸ ⟨fld_lt w 16 31, (uimmAt_mod w).symm⟩, fun ⟨hx, h⟩ => h.trans (Nat.mod_eq_of_lt hx)⟩

theorem sprAt_eq_iff {n : Nat} :
    sprAt w = n ↔ SprOk n ∧ fld w 11 15 = n % 32 ∧ fld w 16 20 = n / 32 % 32 := by
  refine ⟨fun h => h ▸ ⟨sprOk_sprAt w, (sprAt_mod w).symm, (sprAt_div_mod w).symm⟩, fun ⟨hn, hlow, hhigh⟩ => ?_⟩
  rw [sprAt, hlow, hhigh, Nat.mod_eq_of_lt (Nat.div_lt_of_lt_mul hn), Nat.div_add_mod']

end

/-! ### The decoder -/

/-- A tested form: its fields are those of the layout where the test of its reserved bits holds (R143). -/
theorem hasFields_orReserved {w : Word} {z : Bool} {i : Instr} (hi : z = true → HasFields w 0 (layout i)) :
    ∀ j, orReserved z i = some j → HasFields w 0 (layout j) := by
  intro j hj
  cases z <;> cases hj
  exact hi rfl

theorem hasFields_of_decode19 {w : Word} (hop : fld w 0 5 = 19) :
    ∀ i, decode19 w = some i → HasFields w 0 (layout i) := by
  unfold decode19
  split
  case h_13 => exact nofun
  all_goals exact hasFields_orReserved fun hz => by simp_all [layout]

/-- Bit 21, which is OE for subfc, is the high bit of the ten bits 21 to 30 (R140). -/
theorem fld_21_30_split (w : Word) : fld w 21 30 = fld w 21 21 * 512 + fld w 22 30 := by
  simp only [fld]
  omega

theorem hasFields_of_decode31 {w : Word} (hop : fld w 0 5 = 31) :
    ∀ i, decode31 w = some i → HasFields w 0 (layout i) := by
  unfold decode31
  split
  case h_2 hxo | h_3 hxo =>
    have hsplit := fld_21_30_split w
    have hlow := fld_lt w 22 30
    have hxo' : fld w 22 30 = 8 := by omega
    intro i h
    cases h
    simp [layout, hop, hxo']
  case h_13 => exact nofun
  all_goals exact hasFields_orReserved fun hz => by simp_all [layout]

theorem hasFields_of_decode63 {w : Word} (hop : fld w 0 5 = 63) :
    ∀ i, decode63 w = some i → HasFields w 0 (layout i) := by
  unfold decode63
  split
  case h_7 => exact nofun
  all_goals exact hasFields_orReserved fun hz => by simp_all [layout]

/-- The decoder's tests and readings give every field of the layout of what it reads. -/
theorem hasFields_of_decode {w : Word} : ∀ i, decode w = some i → HasFields w 0 (layout i) := by
  unfold decode
  split
  case h_8 hop => exact hasFields_of_decode19 hop
  case h_11 hop => exact hasFields_of_decode31 hop
  case h_13 hop => exact hasFields_of_decode63 hop
  case h_14 => exact nofun
  case h_1 | h_2 | h_6 => exact hasFields_orReserved fun hz => by simp_all [layout]
  all_goals
    intro i h
    cases h
    simp_all [layout]

/-- subfc's row leaves bit 21 free (R140): the decoder accepts both of its values. -/
theorem decode_subfc_of_fields {w : Word} (hop : fld w 0 5 = 31) (hxo : fld w 22 30 = 8) :
    decode w = some (.subfc (regAt w 6) (regAt w 11) (regAt w 16) (flagAt w 21) (flagAt w 31)) := by
  have hsplit := fld_21_30_split w
  have hoe := fld_lt w 21 21
  obtain h | h : fld w 21 30 = 8 ∨ fld w 21 30 = 520 := by omega
  · simp only [decode, hop, decode31, h]
  · simp only [decode, hop, decode31, h]

/-- The fields of a layout answer every test of the decoder, opcode by opcode, and each operand reads back from its field. -/
theorem decode_of_hasFields {w : Word} {i : Instr} (hi : i.wellFormed = true) (h : HasFields w 0 (layout i)) :
    decode w = some i := by
  cases i with
  | cmpli | cmpi | addicDot | addi | bc | sc | b | andiDot | andisDot | lwz =>
    simp_all [layout, decode, orReserved, Instr.wellFormed, SimmOk, BdOk, LiOk, simmAt_eq_iff, bdAt_eq_iff, liAt_eq_iff,
      uimmAt_eq_iff]
  | mcrf | bclr | crnor | rfi | crandc | crxor | crnand | crand | creqv | crorc | cror | bcctr =>
    simp_all [layout, decode, decode19, orReserved]
  | subfc rD rA rB oe rc =>
    obtain ⟨hop, hrD, hrA, hrB, hoe, hxo, hrc, -⟩ := h
    rw [decode_subfc_of_fields hop hxo]
    simp_all
  | cmp | mfcr | cmpl | mfmsr | mtcrf | mtmsr | mfspr | mftb | mtspr | mcrxr =>
    simp_all [layout, decode, decode31, orReserved, Instr.wellFormed, sprAt_eq_iff]
  | mtfsb1 | mcrfs | mtfsb0 | mtfsfi | mffs | mtfsf => simp_all [layout, decode, decode63, orReserved]

/-- What the decoder does, in one statement (R142 to R144). -/
theorem decode_eq_some_iff {w : Word} {i : Instr} :
    decode w = some i ↔ i.wellFormed = true ∧ HasFields w 0 (layout i) :=
  ⟨fun h => ⟨wellFormed_of_decode w i h, hasFields_of_decode i h⟩, fun ⟨hi, h⟩ => decode_of_hasFields hi h⟩

/-- Settles O1: the encoder's word has the fields of the instruction, which is all the decoder asks. -/
theorem decodeInvertsEncode : Obligations.DecodeInvertsEncode := fun i hi =>
  decode_eq_some_iff.mpr ⟨hi, (encode_eq_iff i _).mp rfl⟩

/-- Settles O2: a word that decodes has the fields of its instruction, and the encoder's word is the only one that has. -/
theorem encodeInvertsDecode : Obligations.EncodeInvertsDecode := fun w i h => by
  obtain ⟨hi, hfields⟩ := decode_eq_some_iff.mp h
  exact ⟨hi, (encode_eq_iff i w).mpr hfields⟩

/-- Settles O5: the decoder evaluated on each word. -/
theorem sampleWordsDecode : Obligations.SampleWordsDecode := by
  unfold Obligations.SampleWordsDecode
  decide

theorem wordOfBytes_extractLsb' (w : Word) :
    wordOfBytes (w.extractLsb' 24 8) (w.extractLsb' 16 8) (w.extractLsb' 8 8) (w.extractLsb' 0 8) = w := by
  rw [wordOfBytes, BitVec.extractLsb'_append_extractLsb'_eq_extractLsb' (by rfl),
    BitVec.extractLsb'_append_extractLsb'_eq_extractLsb' (by rfl),
    BitVec.extractLsb'_append_extractLsb'_eq_extractLsb' (by rfl), BitVec.extractLsb'_eq_self]

theorem decodeBytes_bytesOfWord {w : Word} {i : Instr} (h : decode w = some i) (rest : List Byte) :
    decodeBytes (bytesOfWord w ++ rest) = .ok (i, rest) := by
  simp only [bytesOfWord, List.cons_append, List.nil_append, decodeBytes, wordOfBytes_extractLsb', h]

/-- Settles O4: the bytes are those of the encoder's word, which decodes by O1. -/
theorem encodedBytesDecode : Obligations.EncodedBytesDecode := fun i rest hi =>
  ⟨rfl, bigEndian_bytesOfWord (encode i), decodeBytes_bytesOfWord (decodeInvertsEncode i hi) rest⟩

end Sys2Proof.Machine
end

section
/-! The opcode map: a row's mask as the fields that the row fixes, and a word that matches a row as one that decodes to an
instruction of the row (R142, R144). -/

namespace Sys2Proof.Machine

/-! ### Masks and fields -/

/-- The mask of the field from bit `a` to bit `b`. -/
def fieldMask (a b : Nat) : Word := BitVec.ofNat 32 (ins b (2 ^ (b + 1 - a) - 1))

/-- The mask of a list of fields, each given by its first bit, its last bit and a value. -/
def maskOfFields (fs : List (Nat × Nat × Nat)) : Word := fs.foldr (fun f m => fieldMask f.1 f.2.1 ||| m) 0#32

theorem getBit_fieldMask {a b i : Nat} (hb : b < 32) (hi : i < 32) :
    getBit (fieldMask a b) i = decide (a ≤ i ∧ i ≤ b) := by
  rw [getBit_eq_getLsbD _ _ hi, fieldMask, BitVec.getLsbD_ofNat, ins, Nat.testBit_mul_two_pow,
    Nat.testBit_two_pow_sub_one, Bool.eq_iff_iff]
  simp only [Bool.and_eq_true, decide_eq_true_eq]
  omega

theorem testBit_fld (w : Word) (a b j : Nat) :
    (fld w a b).testBit j = (decide (j < b + 1 - a) && w.getLsbD (j + (31 - b))) := by
  rw [fld, Nat.testBit_mod_two_pow, Nat.testBit_div_two_pow, BitVec.testBit_toNat]

theorem fld_eq_fld_iff {v w : Word} {a b : Nat} (hb : b < 32) :
    fld v a b = fld w a b ↔ ∀ i, a ≤ i → i ≤ b → getBit v i = getBit w i := by
  constructor
  · intro h i ha hi
    have hbit := congrArg (Nat.testBit · (b - i)) h
    simp only [testBit_fld, show b - i < b + 1 - a by omega, decide_true, Bool.true_and,
      show b - i + (31 - b) = 31 - i by omega] at hbit
    rwa [getBit_eq_getLsbD _ _ (by omega), getBit_eq_getLsbD _ _ (by omega)]
  · intro h
    refine Nat.eq_of_testBit_eq fun j => ?_
    rw [testBit_fld, testBit_fld]
    by_cases hj : j < b + 1 - a
    · have hbit := h (b - j) (by omega) (by omega)
      rw [getBit_eq_getLsbD _ _ (by omega), getBit_eq_getLsbD _ _ (by omega),
        show 31 - (b - j) = j + (31 - b) by omega] at hbit
      rw [hbit]
    · simp [hj]

/-- Two words agree under a mask exactly if they have the same bits where the mask has ones. -/
theorem and_eq_and_iff {v w m : Word} :
    v &&& m = w &&& m ↔ ∀ i, i < 32 → getBit m i = true → getBit v i = getBit w i := by
  constructor
  · intro h i _ hm
    have hbit := congrArg (getBit · i) h
    simpa [hm] using hbit
  · intro h
    refine eq_of_getBit _ _ fun i hi => ?_
    rw [getBit_and, getBit_and]
    cases hm : getBit m i with
    | false => rw [Bool.and_false, Bool.and_false]
    | true => rw [h i hi hm]

theorem and_fieldMask_eq_iff {v w : Word} {a b : Nat} (hb : b < 32) :
    v &&& fieldMask a b = w &&& fieldMask a b ↔ fld v a b = fld w a b := by
  rw [and_eq_and_iff, fld_eq_fld_iff hb]
  constructor
  · intro h i ha hi
    exact h i (by omega) (by simp [getBit_fieldMask hb (show i < 32 by omega), ha, hi])
  · intro h i hi hm
    rw [getBit_fieldMask hb hi, decide_eq_true_eq] at hm
    obtain ⟨ha, hib⟩ := hm
    exact h i ha hib

theorem and_maskOfFields_eq_iff {v w : Word} {fs : List (Nat × Nat × Nat)} (hfs : ∀ f ∈ fs, f.2.1 < 32) :
    v &&& maskOfFields fs = w &&& maskOfFields fs ↔ ∀ f ∈ fs, fld v f.1 f.2.1 = fld w f.1 f.2.1 := by
  induction fs with
  | nil => simp [maskOfFields]
  | cons f rest ih =>
    obtain ⟨hf, hrest⟩ := List.forall_mem_cons.mp hfs
    rw [List.forall_mem_cons, ← ih hrest, ← and_fieldMask_eq_iff hf]
    simp only [maskOfFields, List.foldr_cons, and_eq_and_iff, getBit_or, Bool.or_eq_true]
    exact ⟨fun h => ⟨fun i hi hm => h i hi (.inl hm), fun i hi hm => h i hi (.inr hm)⟩,
      fun ⟨hfirst, hrest⟩ i hi hm => hm.elim (hfirst i hi) (hrest i hi)⟩

/-! ### The rows of the map -/

/-- The row at a position of the map. -/
def rowAt (k : Fin 39) : OpcodeRow := opcodeMap.get k

theorem rowOf_eq_rowAt (i : Instr) : rowOf i = rowAt (rowIndex i) := rfl

/-- The fields that a row of the map fixes (R142): the first bit, the last bit and the value. The last case is position 38. -/
def fixedFields (k : Fin 39) : List (Nat × Nat × Nat) :=
  match k with
  | 0 => [(0, 5, 10), (9, 10, 0)]  -- cmpli
  | 1 => [(0, 5, 11), (9, 10, 0)]  -- cmpi
  | 2 => [(0, 5, 13)]  -- addic.
  | 3 => [(0, 5, 14)]  -- addi
  | 4 => [(0, 5, 16)]  -- bc
  | 5 => [(0, 5, 17), (6, 29, 0), (30, 30, 1), (31, 31, 0)]  -- sc
  | 6 => [(0, 5, 18)]  -- b
  | 7 => [(0, 5, 19), (9, 10, 0), (14, 20, 0), (21, 30, 0), (31, 31, 0)]  -- mcrf
  | 8 => [(0, 5, 19), (16, 20, 0), (21, 30, 16)]  -- bclr
  | 9 => [(0, 5, 19), (21, 30, 33), (31, 31, 0)]  -- crnor
  | 10 => [(0, 5, 19), (6, 20, 0), (21, 30, 50), (31, 31, 0)]  -- rfi
  | 11 => [(0, 5, 19), (21, 30, 129), (31, 31, 0)]  -- crandc
  | 12 => [(0, 5, 19), (21, 30, 193), (31, 31, 0)]  -- crxor
  | 13 => [(0, 5, 19), (21, 30, 225), (31, 31, 0)]  -- crnand
  | 14 => [(0, 5, 19), (21, 30, 257), (31, 31, 0)]  -- crand
  | 15 => [(0, 5, 19), (21, 30, 289), (31, 31, 0)]  -- creqv
  | 16 => [(0, 5, 19), (21, 30, 417), (31, 31, 0)]  -- crorc
  | 17 => [(0, 5, 19), (21, 30, 449), (31, 31, 0)]  -- cror
  | 18 => [(0, 5, 19), (16, 20, 0), (21, 30, 528)]  -- bcctr
  | 19 => [(0, 5, 28)]  -- andi.
  | 20 => [(0, 5, 29)]  -- andis.
  | 21 => [(0, 5, 31), (9, 10, 0), (21, 30, 0), (31, 31, 0)]  -- cmp
  | 22 => [(0, 5, 31), (22, 30, 8)]  -- subfc
  | 23 => [(0, 5, 31), (11, 20, 0), (21, 30, 19), (31, 31, 0)]  -- mfcr
  | 24 => [(0, 5, 31), (9, 10, 0), (21, 30, 32), (31, 31, 0)]  -- cmpl
  | 25 => [(0, 5, 31), (11, 20, 0), (21, 30, 83), (31, 31, 0)]  -- mfmsr
  | 26 => [(0, 5, 31), (11, 11, 0), (20, 20, 0), (21, 30, 144), (31, 31, 0)]  -- mtcrf
  | 27 => [(0, 5, 31), (11, 20, 0), (21, 30, 146), (31, 31, 0)]  -- mtmsr
  | 28 => [(0, 5, 31), (21, 30, 339), (31, 31, 0)]  -- mfspr
  | 29 => [(0, 5, 31), (21, 30, 371), (31, 31, 0)]  -- mftb
  | 30 => [(0, 5, 31), (21, 30, 467), (31, 31, 0)]  -- mtspr
  | 31 => [(0, 5, 31), (9, 20, 0), (21, 30, 512), (31, 31, 0)]  -- mcrxr
  | 32 => [(0, 5, 32)]  -- lwz
  | 33 => [(0, 5, 63), (11, 20, 0), (21, 30, 38)]  -- mtfsb1
  | 34 => [(0, 5, 63), (9, 10, 0), (14, 20, 0), (21, 30, 64), (31, 31, 0)]  -- mcrfs
  | 35 => [(0, 5, 63), (11, 20, 0), (21, 30, 70)]  -- mtfsb0
  | 36 => [(0, 5, 63), (9, 15, 0), (20, 20, 0), (21, 30, 134)]  -- mtfsfi
  | 37 => [(0, 5, 63), (11, 20, 0), (21, 30, 583)]  -- mffs
  | _ => [(0, 5, 63), (6, 6, 0), (15, 15, 0), (21, 30, 711)]  -- mtfsf

theorem fixedFields_lt : ∀ k, ∀ f ∈ fixedFields k, f.2.1 < 32 := by decide

theorem mask_rowAt : ∀ k, (rowAt k).mask = maskOfFields (fixedFields k) := by decide

theorem matchBits_and_mask_rowAt : ∀ k, (rowAt k).matchBits &&& (rowAt k).mask = (rowAt k).matchBits := by decide

theorem fld_matchBits_rowAt : ∀ k, ∀ f ∈ fixedFields k, fld (rowAt k).matchBits f.1 f.2.1 = f.2.2 := by decide

theorem matches_rowAt_iff {w : Word} {k : Fin 39} :
    w &&& (rowAt k).mask = (rowAt k).matchBits ↔ ∀ f ∈ fixedFields k, fld w f.1 f.2.1 = f.2.2 := by
  have hagree := and_maskOfFields_eq_iff (v := w) (w := (rowAt k).matchBits) (fixedFields_lt k)
  rw [← mask_rowAt, matchBits_and_mask_rowAt] at hagree
  exact hagree.trans (forall₂_congr fun f hf => by rw [fld_matchBits_rowAt k f hf])

/-- The fields that a row fixes are among those of its instructions' layouts, with the same values. -/
theorem matches_of_decode {w : Word} {i : Instr} (h : decode w = some i) :
    w &&& (rowOf i).mask = (rowOf i).matchBits := by
  have hfields := hasFields_of_decode i h
  rw [rowOf_eq_rowAt, matches_rowAt_iff]
  cases i <;> simp_all [layout, rowIndex, fixedFields]

/-- The fields that a row fixes are all that the decoder tests: they lead it to an instruction of the row. -/
theorem decode_of_matches {w : Word} {k : Fin 39} (h : w &&& (rowAt k).mask = (rowAt k).matchBits) :
    ∃ i, decode w = some i ∧ rowIndex i = k := by
  rw [matches_rowAt_iff] at h
  obtain rfl | hk := eq_or_ne k 22
  · have hop : fld w 0 5 = 31 := h (0, 5, 31) (by decide)
    have hxo : fld w 22 30 = 8 := h (22, 30, 8) (by decide)
    exact ⟨_, decode_subfc_of_fields hop hxo, rfl⟩
  · fin_cases k <;> simp_all [fixedFields, decode, decode19, decode31, decode63, orReserved, rowIndex]

/-- Settles O3: a match leads the decoder to the row, and what decodes matches its own row. -/
theorem decodeMatchesOpcodeMap : Obligations.DecodeMatchesOpcodeMap := by
  intro w row hrow
  obtain ⟨k, rfl⟩ := List.mem_iff_get.mp hrow
  refine ⟨fun h => ?decodes, fun ⟨i, hi, hrow⟩ => ?agrees⟩
  case decodes =>
    obtain ⟨i, hi, hk⟩ := decode_of_matches (k := k) h
    exact ⟨i, hi, congrArg rowAt hk⟩
  case agrees => exact hrow ▸ matches_of_decode hi

end Sys2Proof.Machine
end

section
/-! What each write of a register leaves unchanged, as frames that compose: the rule of each update that the moves of CR,
XER, LR and CTR, the compares and the recording integer instructions end in. -/

namespace Sys2Proof.Machine

theorem Same.trans {p : Part} {s t u : State} (h : Same p s t) (h' : Same p t u) : Same p s u := by
  cases p <;> exact Eq.trans h' h

/-- Two changes one after the other change only what one of them changes. -/
theorem OnlyChanges.trans {c d : Part → Prop} {s t u : State} (h : OnlyChanges c s t) (h' : OnlyChanges d t u) :
    OnlyChanges (fun p => c p ∨ d p) s u := fun p hp =>
  (h p fun hc => hp (.inl hc)).trans (h' p fun hd => hp (.inr hd))

theorem OnlyChanges.mono {c d : Part → Prop} {s t : State} (h : OnlyChanges c s t) (hcd : ∀ p, c p → d p) :
    OnlyChanges d s t := fun p hp => h p fun hc => hp (hcd p hc)

/-- `s` with `v` in the 32-bit register `p`, for the registers that an instruction writes whole and alone. The other parts
have updates of their own. -/
def State.setWhole (s : State) (p : Part) (v : Word) : State :=
  match p with
  | .pc => { s with pc := v }
  | .lr => { s with lr := v }
  | .ctr => { s with ctr := v }
  | .dsisr => { s with dsisr := v }
  | .dar => { s with dar := v }
  | .srr0 => { s with srr0 := v }
  | .srr1 => { s with srr1 := v }
  | _ => s

section
variable (s : State) (v : Word)

/-- A write of a whole register leaves every other part. -/
theorem onlyChanges_setWhole (p : Part) : OnlyChanges (fun q => q = p) s (s.setWhole p v) := by
  intro q hq
  cases p with
  | pc | lr | ctr | dsisr | dar | srr0 | srr1 => cases q <;> first | rfl | exact absurd rfl hq
  | _ => cases q <;> rfl

theorem onlyChanges_pc : OnlyChanges (fun p => p = .pc) s { s with pc := v } := onlyChanges_setWhole s v .pc

theorem onlyChanges_setGpr (r : Reg) : OnlyChanges (fun p => p = .gpr r) s (s.setGpr r v) := by
  intro p hp
  cases p with
  | gpr q => exact (State.gpr_setGpr s r q v).trans (if_neg fun h => hp (congrArg Part.gpr h))
  | _ => rfl

theorem onlyChanges_setSprg (k : Fin 4) : OnlyChanges (fun p => p = .sprg k) s (s.setSprg k v) := by
  intro p hp
  cases p with
  | sprg q => exact (State.sprg_setSprg s k q v).trans (if_neg fun h => hp (congrArg Part.sprg h))
  | _ => rfl

/-- A new XER changes only the bits in which it differs. -/
theorem onlyChanges_xer {c : BitNo → Prop} (h : ∀ i, ¬ c i → getBit v i.val = getBit s.xer i.val) :
    OnlyChanges (fun p => ∃ i, c i ∧ p = .xerBit i) s { s with xer := v } := by
  intro p hp
  cases p with
  | xerBit i => exact h i fun hi => hp ⟨i, hi, rfl⟩
  | _ => rfl

/-- A new CR changes only the bits in which it differs. -/
theorem onlyChanges_cr {c : BitNo → Prop} (h : ∀ i, ¬ c i → getBit v i.val = getBit s.cr i.val) :
    OnlyChanges (fun p => ∃ i, c i ∧ p = .crBit i) s { s with cr := v } := by
  intro p hp
  cases p with
  | crBit i => exact h i fun hi => hp ⟨i, hi, rfl⟩
  | _ => rfl

end

theorem onlyChanges_setCrField (s : State) (k : FieldNo) (x : BitVec 4) :
    OnlyChanges (CrFieldPart k) s (s.setCrField k x) :=
  onlyChanges_cr s _ fun _ => getBit_putNibble_of_ne

end Sys2Proof.Machine
end

section
/-! The moves between a GPR and XER, LR, CTR, the supervisor SPRs and the CR, and the CR logical instructions
(40_cr_xer_lr_ctr.md sections 1 to 3). -/

namespace Sys2Proof.Machine

/-! ### mfspr and mtspr -/

theorem privilegedAccess_of_user {n : Nat} (s : State) (h : privilegedSpr n = false) : privilegedAccess n s = none := by
  simp [privilegedAccess, h]

theorem privilegedAccess_of_supervisor {s : State} (n : Nat) (h : getBit s.msr 17 = false) :
    privilegedAccess n s = none := by
  simp [privilegedAccess, State.pr, h]

/-- The registers that mfspr reads are none of EIE, EID and NRI (R247). -/
theorem emulatedRead_of_readSpr {n : Nat} {s : State} {v : Word} (h : readSpr n s = .next v) :
    emulatedRead n = false := by
  rw [← Bool.not_eq_true, emulatedRead]
  simp only [Bool.or_eq_true, beq_iff_eq]
  rintro ((rfl | rfl) | rfl) <;> cases h

/-- An mfspr that reads a register raises only for its privilege (R162). -/
theorem syncException_mfspr_of_readSpr {n : Nat} {s : State} {v : Word} (rD : Reg) (ha : privilegedAccess n s = none)
    (h : readSpr n s = .next v) : syncException (.mfspr rD n) s = none := by
  simp [syncException, ha, emulatedRead_of_readSpr h]

theorem readSpr_sprg (k : Fin 4) (s : State) : readSpr (272 + k.val) s = .next (s.sprg.get k) :=
  match k with
  | 0 | 1 | 2 | 3 => rfl

theorem writeSpr_sprg (k : Fin 4) (v : Word) (s : State) : writeSpr (272 + k.val) v s = .next (s.setSprg k v) :=
  match k with
  | 0 | 1 | 2 | 3 => rfl

/-- The XER without its reserved bits, bit by bit (R20, R40). -/
theorem getBit_and_xerMask (v : Word) (i : BitNo) :
    getBit (v &&& xerMask) i.val = if XerReserved i.val then false else getBit v i.val := by
  have hm : ∀ i : BitNo, getBit xerMask i.val = !decide (XerReserved i.val) := by decide
  rw [getBit_and, hm]
  by_cases h : XerReserved i.val <;> simp [h]

/-- Settles O19: at a level that may read the register, `readSpr` answers its value, and the move writes rD and the pc. -/
theorem mfsprReadsRegister : Obligations.MfsprReadsRegister := by
  intro s rD n hpc hn
  obtain ⟨v, hv, ha⟩ : ∃ v, readSpr n s = .next v ∧ privilegedAccess n s = none := by
    obtain rfl | rfl | rfl | ⟨hpr, hn⟩ := hn
    on_goal 4 =>
      have ha := privilegedAccess_of_supervisor n hpr
      obtain rfl | rfl | rfl | rfl | rfl | ⟨k, rfl⟩ | rfl := hn
      on_goal 6 => exact ⟨_, readSpr_sprg k s, ha⟩
      all_goals exact ⟨_, rfl, ha⟩
    all_goals exact ⟨_, rfl, privilegedAccess_of_user s rfl⟩
  have hrD : State.gpr { s.setGpr rD v with pc := s.pc + 4#32 } rD = v := State.gpr_setGpr_same s rD v
  refine ⟨_, exec_mfspr_of_readSpr (syncException_mfspr_of_readSpr rD ha hv) hv hpc, ?_⟩
  rw [hrD]
  refine ⟨?xer, ?_, ?_, ?_, ?_, ?_, ?_, ?_, ?sprg, ?_, rfl, (onlyChanges_setGpr s v rD).trans (onlyChanges_pc _ _)⟩
  case xer =>
    rintro rfl
    cases hv
    exact getBit_and_xerMask s.xer
  case sprg =>
    rintro k rfl
    cases hv.symm.trans (readSpr_sprg k s)
    rfl
  all_goals
    rintro rfl
    cases hv
    rfl

/-- Settles O20: `writeSpr` answers one update of the state, and the move advances the pc. -/
theorem mtsprStoresRegister : Obligations.MtsprStoresRegister := by
  intro s rS hpc
  have hxer : OnlyChanges (fun p => ∃ i, p = .xerBit i) s (s.setXer (s.gpr rS)) :=
    (onlyChanges_xer s _ fun _ h => absurd trivial h).mono fun _ ⟨i, _, hp⟩ => ⟨i, hp⟩
  have hwhole : ∀ p, OnlyChanges (fun q => q = p ∨ q = .pc) s
      { s.setWhole p (s.gpr rS) with pc := s.pc + 4#32 } := fun p =>
    (onlyChanges_setWhole s _ p).trans (onlyChanges_pc _ _)
  refine ⟨⟨_, exec_mtspr_of_writeSpr (syncException_xer rS s).2 rfl hpc, getBit_and_xerMask (s.gpr rS), rfl,
      hxer.trans (onlyChanges_pc _ _)⟩,
    ⟨_, exec_mtspr_of_writeSpr (privilegedAccess_of_user s rfl) rfl hpc, rfl, rfl, hwhole .lr⟩,
    ⟨_, exec_mtspr_of_writeSpr (privilegedAccess_of_user s rfl) rfl hpc, rfl, rfl, hwhole .ctr⟩, fun hpr => ?_⟩
  have hn : ∀ n, syncException (.mtspr n rS) s = none := fun n => privilegedAccess_of_supervisor n hpr
  exact ⟨⟨_, exec_mtspr_of_writeSpr (hn 18) rfl hpc, rfl, rfl, hwhole .dsisr⟩,
    ⟨_, exec_mtspr_of_writeSpr (hn 19) rfl hpc, rfl, rfl, hwhole .dar⟩,
    ⟨_, exec_mtspr_of_writeSpr (hn 26) rfl hpc, rfl, rfl, hwhole .srr0⟩,
    ⟨_, exec_mtspr_of_writeSpr (hn 27) rfl hpc, rfl, rfl, hwhole .srr1⟩,
    fun k => ⟨_, exec_mtspr_of_writeSpr (hn _) (writeSpr_sprg k _ s) hpc,
      (State.sprg_setSprg s k k _).trans (if_pos rfl), rfl, (onlyChanges_setSprg s _ k).trans (onlyChanges_pc _ _)⟩⟩

/-! ### The moves of the CR -/

/-- Bit `j` of the field that a move of field `q` of `w` leaves in field `k` (R166). -/
theorem getBit_putNibble_getNibble (v w : Word) (k q : Fin 8) (j : Fin 4) :
    getBit (putNibble v k (getNibble w q)) (4 * k.val + j.val) = getBit w (4 * q.val + j.val) :=
  (getBit_putNibble_at v k _ j.val j.isLt).trans (getMsbD_getNibble w q j.val j.isLt)

/-- Settles O26: each move is one write, of a GPR or of fields of the CR, and an advance. -/
theorem crMoves : Obligations.CrMoves := by
  intro s hpc
  refine ⟨fun rD => ⟨_, advance_of_ne hpc, State.gpr_setGpr_same s rD s.cr, rfl,
      (onlyChanges_setGpr s _ rD).trans (onlyChanges_pc _ _)⟩,
    fun crm rS => ⟨_, advance_of_ne hpc, fun i hi => ?_, rfl,
      (onlyChanges_cr s _ fun i hi => ?_).trans (onlyChanges_pc _ _)⟩,
    fun crfD crfS => ⟨_, advance_of_ne hpc, getBit_putNibble_getNibble s.cr s.cr crfD crfS, rfl,
      (onlyChanges_setCrField s crfD _).trans (onlyChanges_pc _ _)⟩⟩
  · exact (getBit_putFields _ _ _ _ i.isLt).trans (if_pos hi)
  · exact (getBit_putFields _ _ _ _ i.isLt).trans (if_neg hi)

/-- Settles O27: the copied field reads the XER without its reserved bits, and XER field 0 is cleared after it. -/
theorem mcrxrCopiesAndClears : Obligations.McrxrCopiesAndClears := by
  intro s crfD hpc
  have hread : ∀ j : Fin 4, getBit s.readXer (4 * (0 : Fin 8).val + j.val) =
      if j.val = 3 then false else getBit s.xer j.val := by
    intro j
    have hj : XerReserved j.val ↔ j.val = 3 := by
      simp only [XerReserved]
      omega
    rw [show 4 * (0 : Fin 8).val + j.val = j.val from Nat.zero_add _]
    exact (getBit_and_xerMask s.xer ⟨j.val, by omega⟩).trans (if_congr hj rfl rfl)
  have hclear : ∀ i : BitNo, ¬ i.val < 4 → getBit (putNibble s.xer 0 0#4) i.val = getBit s.xer i.val := fun i hi =>
    getBit_putNibble_of_ne (by simpa using hi)
  exact ⟨_, advance_of_ne hpc, fun j => (getBit_putNibble_getNibble s.cr s.readXer crfD 0 j).trans (hread j),
    fun j => (getBit_putNibble s.xer 0 0#4 j.val (by omega)).trans (by simp), rfl,
    (onlyChanges_setCrField s crfD (getNibble s.readXer 0)).trans
      ((onlyChanges_xer (s.setCrField crfD (getNibble s.readXer 0)) _ hclear).trans (onlyChanges_pc _ _))⟩

/-! ### The CR logical instructions -/

/-- A CR logical instruction writes the function of two old bits in one bit of the CR (R176). -/
theorem advance_crLogic {s : State} {op : Bool → Bool → Bool} {d a b : BitNo} {v : Bool} (hpc : s.pc ≠ lastWord)
    (hv : op (getBit s.cr a.val) (getBit s.cr b.val) = v) :
    ∃ t, advance (s.crLogic op d a b) = .next t ∧ getBit t.cr d.val = v ∧ t.pc = s.pc + 4#32 ∧
      OnlyChanges (fun p => p = .crBit d ∨ p = .pc) s t := by
  have hbit : getBit (s.crLogic op d a b).cr d.val = v := by
    rw [State.crLogic_cr, getBit_putBit _ _ _ _ d.isLt d.isLt, if_pos rfl]
    exact hv
  have hframe : OnlyChanges (fun p => p = .crBit d) s (s.crLogic op d a b) :=
    (onlyChanges_cr s _ (c := (· = d)) fun i hi => getBit_putBit_of_ne (mt Fin.ext hi)).mono
      fun _ ⟨_, hi, hp⟩ => hi ▸ hp
  exact ⟨_, advance_of_ne hpc, hbit, rfl, hframe.trans (onlyChanges_pc _ _)⟩

/-- Settles O28: each of the eight is `advance_crLogic` of its function. The model writes creqv, the sixth, as a
negated xor. -/
theorem crLogicWritesOneBit : Obligations.CrLogicWritesOneBit := by
  intro s d a b i v hpc hi
  simp only [List.mem_cons, List.not_mem_nil, or_false, Prod.mk.injEq] at hi
  obtain ⟨rfl, rfl⟩ | ⟨rfl, rfl⟩ | ⟨rfl, rfl⟩ | ⟨rfl, rfl⟩ | ⟨rfl, rfl⟩ | ⟨rfl, rfl⟩ | ⟨rfl, rfl⟩ | ⟨rfl, rfl⟩ := hi
  on_goal 6 => exact advance_crLogic hpc (Bool.not_not _)
  all_goals exact advance_crLogic hpc rfl

end Sys2Proof.Machine
end

section
/-! The comparisons that R178 and R179 record in a CR field. -/

namespace Sys2Proof.Machine

/-- The four bits of a comparison (R178, R179). -/
theorem getMsbD_orderField : ∀ lt gt so : Bool,
    (orderField lt gt so).getMsbD 0 = lt ∧ (orderField lt gt so).getMsbD 1 = (!lt && gt) ∧
      (orderField lt gt so).getMsbD 2 = (!lt && !gt) ∧ (orderField lt gt so).getMsbD 3 = so := by decide

/-- A field that holds two exclusive tests and XER[SO] records the order they test. -/
theorem recordsOrder_of_orderField {t : State} {v : Word} {k : FieldNo} {lt gt : Bool} {a b : Int}
    (hcr : t.cr = putNibble v k (orderField lt gt (getBit t.xer 0))) (hlt : lt = true ↔ a < b)
    (hgt : gt = true ↔ b < a) : RecordsOrder k (a < b) (b < a) (a = b) t := by
  have hbit : ∀ j, j < 4 → getBit t.cr (4 * k.val + j) = (orderField lt gt (getBit t.xer 0)).getMsbD j := by
    intro j hj
    rw [hcr, getBit_putNibble_at _ _ _ _ hj]
  obtain ⟨h0, h1, h2, h3⟩ := getMsbD_orderField lt gt (getBit t.xer 0)
  refine ⟨?_, ?_, ?_, (hbit 3 (by decide)).trans h3⟩
  · rw [← hlt, ← h0, ← hbit 0 (by decide), Nat.add_zero]
  · rw [hbit 1 (by decide), h1, Bool.and_eq_true, Bool.not_eq_true', ← Bool.not_eq_true, hlt, hgt]
    omega
  · rw [hbit 2 (by decide), h2, Bool.and_eq_true, Bool.not_eq_true', Bool.not_eq_true', ← Bool.not_eq_true,
      ← Bool.not_eq_true, hlt, hgt]
    omega

theorem recordsOrder_compareSigned {t : State} {v a b : Word} {y : Int} {k : FieldNo} (hb : b.toInt = y)
    (hcr : t.cr = putNibble v k (compareSigned a b (getBit t.xer 0))) :
    RecordsOrder k (a.toInt < y) (y < a.toInt) (a.toInt = y) t := by
  subst hb
  exact recordsOrder_of_orderField hcr BitVec.slt_iff_toInt_lt BitVec.slt_iff_toInt_lt

theorem recordsOrder_compareUnsigned {t : State} {v a b : Word} {y : Nat} {k : FieldNo} (hb : b.toNat = y)
    (hcr : t.cr = putNibble v k (compareUnsigned a b (getBit t.xer 0))) :
    RecordsOrder k (a.toNat < y) (y < a.toNat) (a.toNat = y) t := by
  have hult : ∀ a b : Word, a.ult b = true ↔ (a.toNat : Int) < b.toNat := fun a b => by
    rw [BitVec.ult_iff_toNat_lt, Int.ofNat_lt]
  subst hb
  simpa only [Int.ofNat_lt, Int.natCast_inj] using recordsOrder_of_orderField hcr (hult a b) (hult b a)

theorem toInt_signedWord {x : Int} (h : SimmOk x) : (signedWord x).toInt = x := by
  rw [signedWord, BitVec.toInt_ofInt]
  exact Int.bmod_eq_of_le (by omega) (by omega)

theorem toNat_unsignedWord {x : Nat} (h : UimmOk x) : (unsignedWord x).toNat = x := by
  rw [unsignedWord, BitVec.toNat_ofNat]
  omega

/-- Settles O41: each compare writes the field of its comparison and advances; the final SO is the old one. -/
theorem compareRecordsOrder : Obligations.CompareRecordsOrder := by
  intro s crfD rA rB hpc
  have hframe : ∀ x, OnlyChanges (fun p => CrFieldPart crfD p ∨ p = .pc) s
      { s.setCrField crfD x with pc := s.pc + 4#32 } := fun x =>
    (onlyChanges_setCrField s crfD x).trans (onlyChanges_pc _ _)
  refine ⟨⟨_, advance_of_ne hpc, ?cmp, rfl, hframe _⟩, ⟨_, advance_of_ne hpc, ?cmpl, rfl, hframe _⟩,
    fun simm hs => ⟨_, advance_of_ne hpc, ?cmpi, rfl, hframe _⟩,
    fun uimm hu => ⟨_, advance_of_ne hpc, ?cmpli, rfl, hframe _⟩⟩
  case cmp =>
    rw [← BitVec.toInt_inj]
    exact recordsOrder_compareSigned rfl rfl
  case cmpl =>
    rw [← BitVec.toNat_inj]
    exact recordsOrder_compareUnsigned rfl rfl
  case cmpi => exact recordsOrder_compareSigned (toInt_signedWord hs) rfl
  case cmpli => exact recordsOrder_compareUnsigned (toNat_unsignedWord hu) rfl

/-! ### Recording in CR0 -/

/-- The recording of a result in CR0 (R178), seen from the state that the instruction leaves. -/
theorem recordsCr0_of_recordField {t : State} {v r : Word}
    (hcr : t.cr = putNibble v 0 (recordField r (getBit t.xer 0))) : RecordsCr0 r t := by
  obtain ⟨hneg, hpos, hzero, hso⟩ := recordsOrder_compareSigned (a := r) (b := 0#32) rfl hcr
  have hdecide : ∀ {b : Bool} {p : Prop} [Decidable p], (b = true ↔ p) → b = decide p := fun h =>
    Bool.eq_iff_iff.mpr (h.trans decide_eq_true_iff.symm)
  exact ⟨hdecide hneg, hdecide hpos, hdecide hzero, hso⟩

/-- An instruction that ends by recording the value of its destination records what the destination then holds. -/
theorem advance_recordCr0 {u : State} {r : Reg} {v : Word} (hr : u.gpr r = v) (hpc : u.pc ≠ lastWord) :
    ∃ t, advance (u.recordCr0 v) = .next t ∧ RecordsCr0 (t.gpr r) t := by
  subst hr
  exact ⟨_, advance_of_ne hpc, recordsCr0_of_recordField rfl⟩

/-- Settles O42: the four recording forms end in `advance_recordCr0` of the value just written to the destination. -/
theorem integerResultRecordedInCr0 : Obligations.IntegerResultRecordedInCr0 := by
  intro s r q u oe hpc
  exact ⟨fun _ _ => advance_recordCr0 (State.gpr_setGpr_same s r _) hpc,
    fun _ _ => advance_recordCr0 (State.gpr_setGpr_same s r _) hpc,
    fun _ _ => advance_recordCr0 (State.gpr_setGpr_same s r _) hpc,
    advance_recordCr0 (State.gpr_setGpr_same s r _) hpc, _, advance_of_ne hpc, rfl⟩

end Sys2Proof.Machine
end

section
/-! The FPSCR instructions (41_fpscr.md): the bits that each move supplies, FX by R203, and the end that they share
(R210, R212). -/

namespace Sys2Proof.Machine

open Sys2Proof.Config

/-! ### The bits that a move supplies -/

/-- `f` has the bits `g` wherever a move can write one: R201 discards what it says of the summary bits and of bit 20. -/
def SuppliesBits (f : Word) (g : Nat → Bool) : Prop :=
  ∀ i, i < 32 → i ≠ 1 → i ≠ 2 → i ≠ 20 → getBit f i = g i

theorem getBit_mcrfsMask : ∀ i : BitNo, getBit mcrfsMask i.val = decide (i.val = 0 ∨ ExceptionBit i.val) := by decide

theorem getBit_fpExceptionMask : ∀ i : BitNo, getBit fpExceptionMask i.val = decide (ExceptionBit i.val) := by decide

theorem suppliesBits_mcrfs (s : State) (crfS : FieldNo) :
    SuppliesBits (s.fpscr &&& ~~~(nibbleMask crfS &&& mcrfsMask)) (mcrfsBits crfS s) := by
  intro i hi _ _ _
  rw [getBit_and, getBit_not _ _ hi, getBit_and, getBit_nibbleMask _ _ hi, getBit_mcrfsMask ⟨i, hi⟩, mcrfsBits,
    ← Bool.decide_and]
  by_cases h : i / 4 = crfS.val ∧ (i = 0 ∨ ExceptionBit i)
  · rw [if_pos h, decide_eq_true h, Bool.not_true, Bool.and_false]
  · rw [if_neg h, decide_eq_false h, Bool.not_false, Bool.and_true]

/-- The low word of an FPR holds its bits 32 to 63 (R204). -/
theorem getBit_lowWord (v : DWord) {i : Nat} (hi : i < 32) : getBit (v.extractLsb' 0 32) i = v.getMsbD (32 + i) := by
  rw [getBit_eq_getLsbD _ _ hi, BitVec.getLsbD_extractLsb', BitVec.getMsbD_eq_getLsbD, Nat.zero_add,
    show 64 - 1 - (32 + i) = 31 - i by omega]
  simp [show 31 - i < 32 by omega, show 32 + i < 64 by omega]

theorem suppliesBits_mtfsf (s : State) (fm : BitVec 8) (frB : Reg) :
    SuppliesBits (putFields s.fpscr ((s.fpr frB).extractLsb' 0 32) fm) (mtfsfBits fm frB s) := by
  intro i hi _ _ _
  rw [getBit_putFields _ _ _ _ hi, getBit_lowWord _ hi, mtfsfBits]

theorem suppliesBits_mtfsfi (s : State) (crfD : FieldNo) (imm : BitVec 4) :
    SuppliesBits (putNibble s.fpscr crfD imm) (mtfsfiBits crfD imm s) :=
  fun i hi _ _ _ => getBit_putNibble s.fpscr crfD imm i hi

theorem suppliesBits_mtfsb0 (s : State) (d : BitNo) :
    SuppliesBits (if d = 1 ∨ d = 2 then s.fpscr else putBit s.fpscr d.val false) (mtfsb0Bits d s) := by
  intro i hi h1 h2 _
  unfold mtfsb0Bits
  split
  case isTrue hd =>
    rw [if_neg]
    rintro rfl
    obtain rfl | rfl := hd
    · exact h1 rfl
    · exact h2 rfl
  case isFalse => exact getBit_putBit _ _ _ _ d.isLt hi

theorem fpRise_self (v : Word) : fpRise v v = false := by
  rw [← Bool.not_eq_true, fpRise_iff]
  rintro ⟨i, -, h0, h1⟩
  exact Bool.false_ne_true (h0.symm.trans h1)

/-- Setting a bit is a rise exactly when it is an exception bit that was 0 (R207). -/
theorem fpRise_putBit_true (v : Word) (d : BitNo) :
    fpRise v (putBit v d.val true) = (decide (ExceptionBit d.val) && !getBit v d.val) := by
  rw [Bool.eq_iff_iff, fpRise_iff, Bool.and_eq_true, Bool.not_eq_true', ← getBit_fpExceptionMask]
  constructor
  · rintro ⟨i, hm, h0, h1⟩
    have hid : i = d := by
      by_contra hne
      rw [getBit_putBit_of_ne (mt Fin.ext hne), h0] at h1
      exact Bool.false_ne_true h1
    exact hid ▸ ⟨hm, h0⟩
  · rintro ⟨hm, h0⟩
    exact ⟨d, hm, h0, (getBit_putBit _ _ _ _ d.isLt d.isLt).trans (if_pos rfl)⟩

theorem suppliesBits_mtfsb1 {s : State} {d : BitNo} {f : Word}
    (hf : f = if d = 1 ∨ d = 2 ∨ d = 20 then s.fpscr else putBit s.fpscr d.val true) :
    SuppliesBits (if fpRise s.fpscr f then putBit f 0 true else f) (mtfsb1Bits d s) := by
  intro i hi h1 h2 h20
  unfold mtfsb1Bits
  split at hf
  case isTrue hd =>
    have hexc : ¬ ExceptionBit d.val := by
      obtain rfl | rfl | rfl := hd <;> decide
    have hid : i ≠ d.val := by
      rintro rfl
      obtain rfl | rfl | rfl := hd
      · exact h1 rfl
      · exact h2 rfl
      · exact h20 rfl
    subst hf
    rw [fpRise_self, if_neg Bool.false_ne_true, if_neg hid, decide_eq_false hexc, Bool.false_and, Bool.or_false]
    split
    case isTrue h0 => rw [h0]
    case isFalse => rfl
  case isFalse =>
    subst hf
    rw [fpRise_putBit_true]
    have hset := getBit_putBit s.fpscr d.val i true d.isLt hi
    by_cases hrise : (decide (ExceptionBit d.val) && !getBit s.fpscr d.val) = true
    · rw [if_pos hrise, getBit_putBit _ _ _ _ (by decide) hi, hset, hrise, Bool.or_true]
      split <;> simp
    · rw [if_neg hrise, hset, Bool.eq_false_of_not_eq_true hrise, Bool.or_false]
      by_cases h0 : i = 0 <;> simp [h0]

/-! ### Settling what a move supplies -/

section
variable {f v : Word} {g : Nat → Bool}

/-- FX apart, the bits supplied are those of the settled FPSCR. -/
theorem getBit_of_suppliesBits (hf : SuppliesBits f g) (hv : SettledFrom f v) {i : Nat} (hi : i < 32) (h0 : i ≠ 0)
    (h1 : i ≠ 1) (h2 : i ≠ 2) (h20 : i ≠ 20) : getBit v i = g i := by
  rw [getBit_of_settledFrom hv hi h0, getBit_fixSummary _ _ hi, if_neg h1, if_neg h2, if_neg h20, hf i hi h1 h2 h20]

/-- FEX of the settled FPSCR can be told from the bits supplied (R28, R29). -/
theorem fexOf_of_suppliesBits (hf : SuppliesBits f g) (hv : SettledFrom f v) : fexOf v = fexOfBits g := by
  obtain ⟨-, hvx, -⟩ := summaries_of_settledFrom hv
  have hbit : ∀ i, i < 32 → i ≠ 0 → i ≠ 1 → i ≠ 2 → i ≠ 20 → getBit v i = g i :=
    fun i => getBit_of_suppliesBits hf hv
  rw [VxIsOr] at hvx
  simp [fexOf, fexOfBits, hvx, hbit]

theorem settlesTo_but_fx (hf : SuppliesBits f g) (hv : SettledFrom f v) :
    SettlesTo (fun i => if i = 0 then getBit v 0 else g i) v := by
  refine ⟨fun i h1 h2 h20 => ?_, summaries_of_settledFrom hv⟩
  change getBit v i.val = if i.val = 0 then getBit v 0 else g i.val
  split
  case isTrue h0 => rw [h0]
  case isFalse h0 => exact getBit_of_suppliesBits hf hv i.isLt h0 h1 h2 h20

theorem settlesTo_fixSummary (hf : SuppliesBits f g) : SettlesTo g (fixSummary f) := by
  refine ⟨fun i h1 h2 h20 => ?_, summaries_of_settledFrom (.inl rfl)⟩
  rw [getBit_fixSummary _ _ i.isLt, if_neg h1, if_neg h2, if_neg h20, hf i.val i.isLt h1 h2 h20]

end

/-! ### FX by R203 -/

section
variable {s : State} {f : Word}

theorem setFpscrImplicitFx_of_no_rise (h : fpRise s.fpscr f = false) :
    s.setFpscrImplicitFx f = { s with fpscr := f } := by
  simp [State.setFpscrImplicitFx, h]

theorem setFpscrImplicitFx_of_fx (h : getBit f 0 = true) : s.setFpscrImplicitFx f = { s with fpscr := f } := by
  simp [State.setFpscrImplicitFx, h]

theorem setFpscrImplicitFx_of_architecture (h : s.par.fxOnMtfsf = .architecture) :
    s.setFpscrImplicitFx f = { s with fpscr := f } := by
  simp [State.setFpscrImplicitFx, h]

theorem fx_of_rise_of_literal (h : fpRise s.fpscr f = true) (hl : s.par.fxOnMtfsf = .literal) :
    getBit (s.setFpscrImplicitFx f).fpscr 0 = true := by
  cases hfx : getBit f 0 with
  | true => rw [setFpscrImplicitFx_of_fx hfx, hfx]
  | false => simp [State.setFpscrImplicitFx, h, hfx, hl, getBit_putBit]

/-- Fixing FX writes no other bit, so the rise of R203 is seen in the final FPSCR as in the one supplied. -/
theorem exceptionRises_setFpscrImplicitFx : ExceptionRises s (s.setFpscrImplicitFx f) ↔ fpRise s.fpscr f = true := by
  have hbit : ∀ i : BitNo, ExceptionBit i.val → getBit (s.setFpscrImplicitFx f).fpscr i.val = getBit f i.val := by
    intro i hi
    have h0 : i.val ≠ 0 := by omega
    obtain h | ⟨-, -, ⟨-, h⟩ | ⟨-, h⟩⟩ := s.setFpscrImplicitFx_cases f <;> rw [h]
    all_goals exact (getBit_putBit _ _ _ _ (by decide) i.isLt).trans (if_neg h0)
  rw [fpRise_iff]
  refine exists_congr fun i => ?_
  rw [getBit_fpExceptionMask, decide_eq_true_iff]
  exact and_congr_right fun hi => by rw [hbit i hi]

theorem implicitFx_setFpscrImplicitFx (h0 : getBit f 0 = getBit s.fpscr 0) : ImplicitFx s (s.setFpscrImplicitFx f) := by
  rw [ImplicitFx, exceptionRises_setFpscrImplicitFx, Bool.not_eq_true]
  refine ⟨fun hrise => ?_, fun hfx => ?_, fx_of_rise_of_literal, fun harch => ?_⟩
  · rw [setFpscrImplicitFx_of_no_rise hrise, h0]
  · rw [setFpscrImplicitFx_of_fx (h0.trans hfx), h0, hfx]
  · rw [setFpscrImplicitFx_of_architecture harch, h0]

end

/-! ### The end of an FPSCR instruction -/

/-- The state that an FPSCR instruction leaves after its own writes: CR1 recorded as Rc says (R212), the pc advanced. -/
def State.endFp (s : State) (rc : Bool) : State :=
  { s with
    cr := if rc then putNibble s.cr 1 (getNibble s.fpscr 0) else s.cr
    pc := s.pc + 4#32 }

theorem advance_recordCr1 {s : State} (rc : Bool) (hpc : s.pc ≠ lastWord) :
    advance (if rc then s.recordCr1 else s) = .next (s.endFp rc) := by
  cases rc <;> exact advance_of_ne hpc

theorem recordsCr1_endFp {s : State} {rc : Bool} (hrc : rc = true) : RecordsCr1 (s.endFp rc) := by
  subst hrc
  intro j
  have hcopy := getBit_putNibble_getNibble s.cr s.fpscr 1 0 j
  rwa [show 4 * (0 : Fin 8).val + j.val = j.val from Nat.zero_add _] at hcopy

theorem onlyChanges_endFp (s : State) (rc : Bool) :
    OnlyChanges (fun p => (rc = true ∧ CrFieldPart 1 p) ∨ p = .pc) s (s.endFp rc) := by
  have hcr := onlyChanges_cr s (if rc then putNibble s.cr 1 (getNibble s.fpscr 0) else s.cr)
    fun _ => getBit_recorded_of_ne
  exact (hcr.trans (onlyChanges_pc _ _)).mono fun _ => Or.imp_left fun ⟨i, ⟨hrc, hi⟩, hp⟩ => ⟨hrc, i, hi, hp⟩

theorem onlyChanges_fpscr (s : State) (f : Word) :
    OnlyChanges (fun p => ∃ i, p = .fpscrBit i) s { s with fpscr := f } := by
  intro p hp
  cases p with
  | fpscrBit i => exact absurd ⟨i, rfl⟩ hp
  | _ => rfl

theorem onlyChanges_draws (s : State) (n : Nat) : OnlyChanges (fun p => p = .draws) s { s with draws := n } := by
  intro p hp
  cases p with
  | draws => exact absurd rfl hp
  | _ => rfl

theorem onlyChanges_fpscr_draws (s : State) (f : Word) (n : Nat) :
    OnlyChanges (fun p => (∃ i, p = .fpscrBit i) ∨ p = .draws) s { s with fpscr := f, draws := n } :=
  (onlyChanges_fpscr s f).trans (onlyChanges_draws { s with fpscr := f } n)

theorem onlyChanges_setFpr (s : State) (r : Reg) (v : DWord) : OnlyChanges (fun p => p = .fpr r) s (s.setFpr r v) := by
  intro p hp
  cases p with
  | fpr q => exact (State.fpr_setFpr s r q v).trans (if_neg fun h => hp (congrArg Part.fpr h))
  | _ => rfl

section
variable {s u : State} {f : Word} {g : Nat → Bool}

/-- A move that leaves FEX & (FE0 | FE1) = 0 is carried out to its end (R210). -/
theorem finishFpscr_of_mayMove (rc : Bool) (hf : SuppliesBits f g) (hu : SettledFrom f u.fpscr) (hmsr : u.msr = s.msr)
    (hpc : u.pc ≠ lastWord) (hm : MayMove g s) : finishFpscr rc u = .next (u.endFp rc) := by
  refine finishFpscr_eq_next.mpr ⟨?_, advance_recordCr1 rc hpc⟩
  rw [fexOf_of_suppliesBits hf hu, State.fpPrecise, hmsr]
  obtain hfex | ⟨hfe0, hfe1⟩ := hm
  · rw [hfex, Bool.false_and]
  · rw [hfe0, hfe1, Bool.or_false, Bool.and_false]

/-- A move of one bit puts the settled FPSCR in place and ends (R206, R207). -/
theorem finishFpscr_fixSummary (rc : Bool) (hf : SuppliesBits f g) (hpc : s.pc ≠ lastWord) (hm : MayMove g s) :
    ∃ t, finishFpscr rc { s with fpscr := fixSummary f } = .next t ∧ SettlesTo g t.fpscr ∧
      (rc = true → RecordsCr1 t) ∧ t.pc = s.pc + 4#32 ∧
      OnlyChanges (fun p => (∃ i, p = .fpscrBit i) ∨ (rc = true ∧ CrFieldPart 1 p) ∨ p = .pc) s t :=
  ⟨_, finishFpscr_of_mayMove rc hf (.inl rfl) rfl hpc hm, settlesTo_fixSummary hf, recordsCr1_endFp, rfl,
    (onlyChanges_fpscr s _).trans (onlyChanges_endFp _ rc)⟩

/-- A move that leaves an enabled exception in precise mode is refused (R210). -/
theorem finishFpscr_of_outstanding (rc : Bool) (hf : SuppliesBits f g) (hu : SettledFrom f u.fpscr)
    (hmsr : u.msr = s.msr) (hprecise : getBit s.msr 20 = true ∨ getBit s.msr 23 = true) (hfex : fexOfBits g = true) :
    finishFpscr rc u = .refused .fexEnabledAfterFpscrMove := by
  have hp : u.fpPrecise = true := by rwa [State.fpPrecise, hmsr, Bool.or_eq_true]
  rw [finishFpscr, fexOf_of_suppliesBits hf hu, hfex, hp, Bool.and_self, if_pos rfl]

end

/-- Where MSR[FP] = 1 an FPSCR instruction has the effect of its rule (R200). -/
theorem exec_of_fp {i : Instr} {s : State} {r o : Result State} (hexec : exec i s = unlessRaised i s r)
    (hn : syncException i s = needsFp s) (hfp : getBit s.msr 18 = true) (hr : r = o) : exec i s = o := by
  rw [hexec, unlessRaised_of_none (hn.trans (needsFp_of_fp hfp)), hr]

/-- The low word of two words side by side is the second (R208). -/
theorem toNat_append_mod (a b : Word) : (a ++ b).toNat % 4294967296 = b.toNat :=
  (BitVec.toNat_setWidth 32 (a ++ b)).symm.trans (congrArg BitVec.toNat BitVec.setWidth_append_eq_right)

/-! ### Moves that write FX explicitly or by R203 -/

/-- `f` settled and put in the FPSCR, its FX as it is where `explicit` holds and by R203 elsewhere: what mtfsf and
mtfsfi do before they end. -/
def State.settleFx (s : State) (explicit : Prop) [Decidable explicit] (f : Word) : State :=
  if explicit then { s with fpscr := fixSummary f } else s.setFpscrImplicitFx (fixSummary f)

section
variable {s : State} {f : Word} {g : Nat → Bool} {explicit : Prop} [Decidable explicit]

theorem settleFx_eq_of_explicit (h : explicit) : s.settleFx explicit f = { s with fpscr := fixSummary f } := if_pos h

theorem settleFx_eq_of_not_explicit (h : ¬ explicit) :
    s.settleFx explicit f = s.setFpscrImplicitFx (fixSummary f) := if_neg h

theorem settledFrom_settleFx : SettledFrom f (s.settleFx explicit f).fpscr := by
  by_cases h : explicit
  · rw [settleFx_eq_of_explicit h]
    exact .inl rfl
  · rw [settleFx_eq_of_not_explicit h]
    exact settledFrom_setFpscrImplicitFx s f

theorem settleFx_msr_pc : (s.settleFx explicit f).msr = s.msr ∧ (s.settleFx explicit f).pc = s.pc := by
  refine ⟨?_, settleFx_cr_pc.2⟩
  by_cases h : explicit
  · rw [settleFx_eq_of_explicit h]
  · rw [settleFx_eq_of_not_explicit h]
    obtain h | ⟨-, -, ⟨-, h⟩ | ⟨-, h⟩⟩ := s.setFpscrImplicitFx_cases (fixSummary f) <;> rw [h]

theorem onlyChanges_settleFx :
    OnlyChanges (fun p => (∃ i, p = .fpscrBit i) ∨ (¬ explicit ∧ p = .draws)) s (s.settleFx explicit f) := by
  have hfpscr : ∀ v, OnlyChanges (fun p => (∃ i, p = .fpscrBit i) ∨ (¬ explicit ∧ p = .draws)) s
      { s with fpscr := v } := fun v => (onlyChanges_fpscr s v).mono fun _ => .inl
  by_cases h : explicit
  · rw [settleFx_eq_of_explicit h]
    exact hfpscr _
  · rw [settleFx_eq_of_not_explicit h]
    obtain hs | ⟨-, -, ⟨-, hs⟩ | ⟨-, hs⟩⟩ := s.setFpscrImplicitFx_cases (fixSummary f) <;> rw [hs]
    · exact hfpscr _
    · exact hfpscr _
    · exact (onlyChanges_fpscr_draws s _ _).mono fun _ => Or.imp_right fun hp => ⟨h, hp⟩

/-- A move that settles FX in one of the two ways and may be carried out, from its settling to its end. -/
theorem finishFpscr_settleFx (rc : Bool) (hf : SuppliesBits f g) (hfx : ¬ explicit → getBit f 0 = getBit s.fpscr 0)
    (hpc : s.pc ≠ lastWord) (hm : MayMove g s) :
    ∃ t, finishFpscr rc (s.settleFx explicit f) = .next t ∧ (explicit → SettlesTo g t.fpscr) ∧
      (¬ explicit → SettlesTo (fun i => if i = 0 then getBit t.fpscr 0 else g i) t.fpscr ∧ ImplicitFx s t) ∧
      (rc = true → RecordsCr1 t) ∧ t.pc = s.pc + 4#32 ∧
      OnlyChanges (fun p => (∃ i, p = .fpscrBit i) ∨ (rc = true ∧ CrFieldPart 1 p) ∨ p = .pc ∨
        (¬ explicit ∧ p = .draws)) s t := by
  obtain ⟨hmsr, hpc'⟩ := settleFx_msr_pc (s := s) (f := f) (explicit := explicit)
  refine ⟨_, finishFpscr_of_mayMove rc hf settledFrom_settleFx hmsr (hpc'.symm ▸ hpc) hm, fun h => ?_, fun h => ?_,
    recordsCr1_endFp, congrArg (· + 4#32) hpc', (onlyChanges_settleFx.trans (onlyChanges_endFp _ rc)).mono ?_⟩
  · rw [settleFx_eq_of_explicit h]
    exact settlesTo_fixSummary hf
  · refine ⟨settlesTo_but_fx hf settledFrom_settleFx, ?_⟩
    rw [settleFx_eq_of_not_explicit h]
    exact implicitFx_setFpscrImplicitFx ((getBit_fixSummary f 0 (by decide)).trans (hfx h))
  · rintro p ((h | h) | (h | h))
    · exact .inl h
    · exact .inr (.inr (.inr h))
    · exact .inr (.inl h)
    · exact .inr (.inr (.inl h))

end

/-! ### The statements about the FPSCR instructions -/

/-- Settles O18: the six raise before any effect, by entry (R304). -/
theorem fpUnavailableTaken : Obligations.FpUnavailableTaken := by
  intro s k q d r fm imm rc hfp i hi
  have hn : needsFp s = some .fpUnavailable := by simp [needsFp, State.fp, hfp]
  simp only [List.mem_cons, List.not_mem_nil, or_false] at hi
  obtain rfl | rfl | rfl | rfl | rfl | rfl := hi <;> exact ⟨_, exec_of_raised hn, entersVia_enter _ _ s⟩

/-- Settles O29: the field is copied from the old FPSCR, and the bits that R202 clears are those of the mask. -/
theorem mcrfsCopiesAndClears : Obligations.McrfsCopiesAndClears := by
  intro s crfD crfS hpc hfp hm
  have hf := suppliesBits_mcrfs s crfS
  refine ⟨_, exec_of_fp rfl rfl hfp (finishFpscr_of_mayMove false hf (.inl rfl) rfl hpc hm), settlesTo_fixSummary hf,
    getBit_putNibble_getNibble s.cr s.fpscr crfD crfS, rfl, ?_⟩
  refine (((onlyChanges_setCrField s crfD _).trans (onlyChanges_fpscr _ _)).trans (onlyChanges_endFp _ false)).mono ?_
  rintro p ((h | h) | (⟨h, -⟩ | h))
  · exact .inl h
  · exact .inr (.inl h)
  · cases h
  · exact .inr (.inr h)

/-- Settles O30: with FM[0] = 0 the fields supplied leave FX to R203. -/
theorem mtfsfWritesFields : Obligations.MtfsfWritesFields := by
  intro s fm frB rc hpc hfp hm
  simp only [← Bool.not_eq_true]
  have hf := suppliesBits_mtfsf s fm frB
  have hfx : ¬ fm.getMsbD 0 = true → _ = getBit s.fpscr 0 := fun h =>
    (getBit_putFields s.fpscr ((s.fpr frB).extractLsb' 0 32) fm 0 (by decide)).trans (if_neg h)
  obtain ⟨t, ht, hrest⟩ := finishFpscr_settleFx rc hf hfx hpc hm
  exact ⟨t, exec_of_fp rfl rfl hfp ht, hrest⟩

/-- Settles O31: a field other than 0 leaves FX to R203. -/
theorem mtfsfiWritesField : Obligations.MtfsfiWritesField := by
  intro s crfD imm rc hpc hfp hm
  have hfx : ¬ crfD = 0 → getBit (putNibble s.fpscr crfD imm) 0 = getBit s.fpscr 0 := fun h =>
    getBit_putNibble_of_ne (b := 0) fun h0 => h (Fin.ext h0.symm)
  obtain ⟨t, ht, hrest⟩ := finishFpscr_settleFx rc (suppliesBits_mtfsfi s crfD imm) hfx hpc hm
  exact ⟨t, exec_of_fp rfl rfl hfp ht, hrest⟩

/-- Settles O32: both moves settle the bits they supply; a rise under mtfsb1 is that of the bit itself. -/
theorem mtfsb0AndMtfsb1WriteOneBit : Obligations.Mtfsb0AndMtfsb1WriteOneBit := by
  intro s crbD rc hpc hfp
  refine ⟨fun hm => ?mtfsb0, fun hm => ?mtfsb1⟩
  case mtfsb0 =>
    obtain ⟨t, ht, hrest⟩ := finishFpscr_fixSummary rc (suppliesBits_mtfsb0 s crbD) hpc hm
    exact ⟨t, exec_of_fp rfl rfl hfp ht, hrest⟩
  case mtfsb1 =>
    obtain ⟨t, ht, hrest⟩ := finishFpscr_fixSummary rc (suppliesBits_mtfsb1 (s := s) (d := crbD) rfl) hpc hm
    exact ⟨t, exec_of_fp rfl rfl hfp ht, hrest⟩

/-- Settles O33: the low word of the FPR is the FPSCR whatever is drawn for the high word. -/
theorem mffsReadsFpscr : Obligations.MffsReadsFpscr := by
  intro s frD rc hpc hfp
  have hlow := toNat_append_mod (anyWord s.draws) s.fpscr
  rw [← State.fpr_setFpr_same s frD (anyWord s.draws ++ s.fpscr)] at hlow
  refine ⟨_, exec_of_fp rfl rfl hfp (advance_recordCr1 rc hpc), hlow, recordsCr1_endFp, rfl, ?_⟩
  refine (((onlyChanges_setFpr s frD _).trans (onlyChanges_draws _ _)).trans (onlyChanges_endFp _ rc)).mono ?_
  rintro p ((h | h) | (h | h))
  · exact .inl h
  · exact .inr (.inr (.inr h))
  · exact .inr (.inl h)
  · exact .inr (.inr (.inl h))

/-- Settles O34: FEX depends on the bits supplied alone, and not on what FX becomes. -/
theorem outstandingFpExceptionRefused : Obligations.OutstandingFpExceptionRefused := by
  intro s k q d r fm imm rc hfp hprecise i g hi hfex
  simp only [List.mem_cons, List.not_mem_nil, or_false, Prod.mk.injEq] at hi
  obtain ⟨rfl, rfl⟩ | ⟨rfl, rfl⟩ | ⟨rfl, rfl⟩ | ⟨rfl, rfl⟩ | ⟨rfl, rfl⟩ := hi <;> refine exec_of_fp rfl rfl hfp ?_
  · exact finishFpscr_of_outstanding false (suppliesBits_mcrfs s q) (.inl rfl) rfl hprecise hfex
  · exact finishFpscr_of_outstanding rc (suppliesBits_mtfsf s fm r) settledFrom_settleFx settleFx_msr_pc.1 hprecise
      hfex
  · exact finishFpscr_of_outstanding rc (suppliesBits_mtfsfi s k imm) settledFrom_settleFx settleFx_msr_pc.1 hprecise
      hfex
  · exact finishFpscr_of_outstanding rc (suppliesBits_mtfsb0 s d) (.inl rfl) rfl hprecise hfex
  · exact finishFpscr_of_outstanding rc (suppliesBits_mtfsb1 (d := d) rfl) (.inl rfl) rfl hprecise hfex

/-- Settles O35 from what O30 to O33 say of each instruction with Rc = 1. -/
theorem rcRecordsFpStatusInCr1 : Obligations.RcRecordsFpStatusInCr1 := by
  intro s k d r fm imm hpc hfp i g hi hm
  simp only [List.mem_cons, List.not_mem_nil, or_false, Prod.mk.injEq] at hi
  obtain ⟨rfl, rfl⟩ | ⟨rfl, rfl⟩ | ⟨rfl, rfl⟩ | ⟨rfl, rfl⟩ | ⟨rfl, -⟩ := hi
  · obtain ⟨t, ht, -, -, hcr, -⟩ := mtfsfWritesFields s fm r true hpc hfp hm
    exact ⟨t, ht, hcr rfl⟩
  · obtain ⟨t, ht, -, -, hcr, -⟩ := mtfsfiWritesField s k imm true hpc hfp hm
    exact ⟨t, ht, hcr rfl⟩
  · obtain ⟨t, ht, -, hcr, -⟩ := (mtfsb0AndMtfsb1WriteOneBit s d true hpc hfp).1 hm
    exact ⟨t, ht, hcr rfl⟩
  · obtain ⟨t, ht, -, hcr, -⟩ := (mtfsb0AndMtfsb1WriteOneBit s d true hpc hfp).2 hm
    exact ⟨t, ht, hcr rfl⟩
  · obtain ⟨t, ht, -, hcr, -⟩ := mffsReadsFpscr s r true hpc hfp
    exact ⟨t, ht, hcr rfl⟩

end Sys2Proof.Machine
end

section
/-! The moves of the time base and the decrementer (42_timebase_dec.md). -/

namespace Sys2Proof.Machine

/-! ### The decrementer -/

theorem onlyChanges_setDec (s : State) (v : Word) :
    OnlyChanges (fun p => p = .dec ∨ p = .decReq) s (s.setDec v) := by
  intro p hp
  cases p with
  | dec | decReq => simp at hp
  | _ => rfl

/-- A request stands after a write of the DEC if it stood before it, or if bit 0 goes from zero to one (R224). -/
theorem setDec_decReq_iff (s : State) (v : Word) :
    (s.setDec v).decReq = true ↔ s.decReq = true ∨ (s.dec.toNat < 2147483648 ∧ 2147483648 ≤ v.toNat) := by
  simp [getBit_zero_eq_msb]

/-- Settles O21: mtdec is `State.setDec` and an advance. -/
theorem mtdecSignalsRequest : Obligations.MtdecSignalsRequest := by
  intro s rS hpc hpr
  have hframe := (onlyChanges_setDec s (s.gpr rS)).trans (onlyChanges_pc _ (s.pc + 4#32))
  exact ⟨_, exec_mtspr_of_writeSpr (privilegedAccess_of_supervisor 22 hpr) rfl hpc, rfl,
    setDec_decReq_iff s (s.gpr rS), rfl, hframe.mono fun _ => or_assoc.mp⟩

/-! ### The time base -/

/-- TBL is the time base modulo 2^32 (R47). -/
theorem State.tbl_toNat (s : State) : s.tbl.toNat = s.tb.toNat % 4294967296 := by
  rw [State.tbl, BitVec.extractLsb'_toNat, Nat.shiftRight_zero]

/-- TBU is the time base divided by 2^32 (R47). -/
theorem State.tbu_toNat (s : State) : s.tbu.toNat = s.tb.toNat / 4294967296 := by
  have hlt := s.tb.isLt
  rw [State.tbu, BitVec.extractLsb'_toNat, Nat.shiftRight_eq_div_pow]
  omega

/-- The time base is its two halves side by side (R47). -/
theorem State.tb_toNat_eq_halves (s : State) : s.tb.toNat = s.tbu.toNat * 4294967296 + s.tbl.toNat := by
  rw [s.tbu_toNat, s.tbl_toNat, Nat.div_add_mod']

theorem onlyChanges_setTbl (s : State) (v : Word) : OnlyChanges (fun p => p = .tbl) s (s.setTbl v) := by
  intro p hp
  cases p with
  | tbl => exact absurd rfl hp
  | tbu => exact s.tbu_setTbl v
  | _ => rfl

theorem onlyChanges_setTbu (s : State) (v : Word) : OnlyChanges (fun p => p = .tbu) s (s.setTbu v) := by
  intro p hp
  cases p with
  | tbu => exact absurd rfl hp
  | tbl => exact s.tbl_setTbu v
  | _ => rfl

/-- A half of the time base that mftb reads at either level is left in rD (R220). -/
theorem exec_mftb_of_readTb {s : State} {rD : Reg} {n : Nat} {v : Word} (hn : privilegedSpr n = false)
    (hv : readTb n s = .next v) (hpc : s.pc ≠ lastWord) :
    ∃ t, exec (.mftb rD n) s = .next t ∧ t.gpr rD = v ∧ t.pc = s.pc + 4#32 ∧
      OnlyChanges (fun p => p = .gpr rD ∨ p = .pc) s t := by
  have hraise : syncException (.mftb rD n) s = none := privilegedAccess_of_user s hn
  refine ⟨{ s.setGpr rD v with pc := s.pc + 4#32 }, ?_, State.gpr_setGpr_same s rD v, rfl,
    (onlyChanges_setGpr s v rD).trans (onlyChanges_pc _ _)⟩
  simp only [exec, execMftb, unlessRaised_of_none hraise, hv, andThen_next]
  exact advance_of_ne hpc

/-- Settles O22: a read is of one half, and a write puts rS beside the half that stands. -/
theorem timeBaseMoves : Obligations.TimeBaseMoves := by
  intro s r hpc
  refine ⟨?tblRead, ?tbuRead, fun hpr => ⟨?tblWrite, ?tbuWrite⟩⟩
  case tblRead =>
    obtain ⟨t, ht, hr, hrest⟩ := exec_mftb_of_readTb (rD := r) (n := 268) rfl rfl hpc
    exact ⟨t, ht, hr ▸ s.tbl_toNat, hrest⟩
  case tbuRead =>
    obtain ⟨t, ht, hr, hrest⟩ := exec_mftb_of_readTb (rD := r) (n := 269) rfl rfl hpc
    exact ⟨t, ht, hr ▸ s.tbu_toNat, hrest⟩
  case tblWrite =>
    have htb : (s.setTbl (s.gpr r)).tb.toNat = s.tb.toNat / 4294967296 * 4294967296 + (s.gpr r).toNat := by
      rw [State.tb_toNat_eq_halves, State.tbu_setTbl, State.tbl_setTbl, s.tbu_toNat]
    exact ⟨_, exec_mtspr_of_writeSpr (privilegedAccess_of_supervisor 284 hpr) rfl hpc, htb, rfl,
      (onlyChanges_setTbl s _).trans (onlyChanges_pc _ _)⟩
  case tbuWrite =>
    have htb : (s.setTbu (s.gpr r)).tb.toNat = (s.gpr r).toNat * 4294967296 + s.tb.toNat % 4294967296 := by
      rw [State.tb_toNat_eq_halves, State.tbu_setTbu, State.tbl_setTbu, s.tbl_toNat]
    exact ⟨_, exec_mtspr_of_writeSpr (privilegedAccess_of_supervisor 285 hpr) rfl hpc, htb, rfl,
      (onlyChanges_setTbu s _).trans (onlyChanges_pc _ _)⟩

end Sys2Proof.Machine
end

section
/-! The supervisor's instructions: the MSR moves, EIE, EID and NRI, sc and rfi, and the SPR accesses that are refused
(43_supervisor.md). -/

namespace Sys2Proof.Machine

/-! ### The MSR -/

/-- A new MSR changes only the bits in which it differs. -/
theorem onlyChanges_msr {c : BitNo → Prop} (s : State) (v : Word)
    (h : ∀ i, ¬ c i → getBit v i.val = getBit s.msr i.val) :
    OnlyChanges (fun p => ∃ i, c i ∧ p = .msrBit i) s { s with msr := v } := by
  intro p hp
  cases p with
  | msrBit i => exact h i fun hi => hp ⟨i, hi, rfl⟩
  | _ => rfl

/-- The MSR and the pc written together change only MSR bits and the pc. -/
theorem onlyChanges_msr_pc (s : State) (v q : Word) :
    OnlyChanges (fun p => (∃ i, p = .msrBit i) ∨ p = .pc) s { s with msr := v, pc := q } := by
  have hmsr : OnlyChanges (fun p => ∃ i : BitNo, True ∧ p = .msrBit i) s { s with msr := v } :=
    onlyChanges_msr s v fun _ h => absurd trivial h
  exact (hmsr.mono fun _ ⟨i, _, hp⟩ => ⟨i, hp⟩).trans (onlyChanges_pc _ q)

/-- The MSR without its reserved bits, bit by bit (R20, R49). -/
theorem getBit_and_msrMask (v : Word) (i : BitNo) :
    getBit (v &&& msrMask) i.val = if MsrReserved i.val then false else getBit v i.val := by
  have hm : ∀ i : BitNo, getBit msrMask i.val = !decide (MsrReserved i.val) := by decide
  rw [getBit_and, hm]
  by_cases h : MsrReserved i.val <;> simp [h]

theorem exec_mfmsr_of_supervisor {s : State} (rD : Reg) (hpr : getBit s.msr 17 = false) (hpc : s.pc ≠ lastWord) :
    exec (.mfmsr rD) s = .next { s.setGpr rD s.readMsr with pc := s.pc + 4#32 } :=
  (unlessRaised_of_none (i := .mfmsr rD) (privileged_of_supervisor hpr)).trans (advance_of_ne hpc)

theorem exec_mtmsr_of_supervisor {s : State} (rS : Reg) (hpr : getBit s.msr 17 = false) (hpc : s.pc ≠ lastWord) :
    exec (.mtmsr rS) s = .next { s.setMsr (s.gpr rS) with pc := s.pc + 4#32 } :=
  (unlessRaised_of_none (i := .mtmsr rS) (privileged_of_supervisor hpr)).trans (advance_of_ne hpc)

/-- Settles O25: both moves go through the mask of the defined bits. -/
theorem msrMoves : Obligations.MsrMoves := by
  intro s r hpc hpr
  refine ⟨⟨_, exec_mfmsr_of_supervisor r hpr hpc, ?_, rfl, (onlyChanges_setGpr s _ r).trans (onlyChanges_pc _ _)⟩,
    ⟨_, exec_mtmsr_of_supervisor r hpr hpc, getBit_and_msrMask (s.gpr r), rfl, onlyChanges_msr_pc s _ _⟩⟩
  have hr : State.gpr { s.setGpr r s.readMsr with pc := s.pc + 4#32 } r = s.msr &&& msrMask :=
    State.gpr_setGpr_same s r s.readMsr
  rw [hr]
  exact getBit_and_msrMask s.msr

/-! ### EIE, EID and NRI -/

theorem getBit_setEeRi_msr (s : State) (ee ri : Bool) (i : BitNo) :
    getBit (s.setEeRi ee ri).msr i.val = if i.val = 30 then ri else if i.val = 16 then ee else getBit s.msr i.val := by
  rw [State.setEeRi_msr, getBit_putBit _ _ _ _ (by decide) i.isLt, getBit_putBit _ _ _ _ (by decide) i.isLt]

theorem onlyChanges_setEeRi (s : State) (ee ri : Bool) :
    OnlyChanges (fun p => p = .msrBit 16 ∨ p = .msrBit 30) s (s.setEeRi ee ri) := by
  have hkept : ∀ i : BitNo, ¬ (i = 16 ∨ i = 30) → getBit (s.setEeRi ee ri).msr i.val = getBit s.msr i.val := by
    intro i hi
    have h16 : i.val ≠ 16 := fun h => hi (.inl (Fin.ext h))
    have h30 : i.val ≠ 30 := fun h => hi (.inr (Fin.ext h))
    rw [getBit_setEeRi_msr, if_neg h30, if_neg h16]
  refine (onlyChanges_msr s _ hkept).mono ?_
  rintro _ ⟨i, rfl | rfl, rfl⟩
  exacts [.inl rfl, .inr rfl]

/-- The rows of Table 2-14 (R246). -/
theorem writeSpr_of_eeRi_row {n : Nat} {ee ri : Bool} (v : Word) (s : State)
    (h : (n, ee, ri) ∈ [(80, true, true), (81, false, true), (82, false, false)]) :
    writeSpr n v s = .next (s.setEeRi ee ri) := by
  simp only [List.mem_cons, Prod.mk.injEq, List.not_mem_nil, or_false] at h
  obtain ⟨rfl, rfl, rfl⟩ | ⟨rfl, rfl, rfl⟩ | ⟨rfl, rfl, rfl⟩ := h <;> rfl

/-- Settles O23: each of the three numbers is one `State.setEeRi` and an advance. -/
theorem eieEidNriSetMsr : Obligations.EieEidNriSetMsr := by
  intro s rS n ee ri hpc hpr hrow
  have hframe := (onlyChanges_setEeRi s ee ri).trans (onlyChanges_pc _ (s.pc + 4#32))
  exact ⟨_, exec_mtspr_of_writeSpr (privilegedAccess_of_supervisor n hpr) (writeSpr_of_eeRi_row _ s hrow) hpc,
    getBit_setEeRi_msr s ee ri 16, getBit_setEeRi_msr s ee ri 30, rfl, hframe.mono fun _ => or_assoc.mp⟩

theorem emulatedRead_iff (n : Nat) : emulatedRead n = true ↔ n = 80 ∨ n = 81 ∨ n = 82 := by
  simp [emulatedRead, or_assoc]

/-- Settles O17: at supervisor level the privilege check passes, and the read itself raises. -/
theorem emulatedReadsTrap : Obligations.EmulatedReadsTrap := by
  intro s rD n hpr hn
  have hraise : syncException (.mfspr rD n) s = some .softwareEmulation := by
    simp [syncException, privilegedAccess_of_supervisor n hpr, (emulatedRead_iff n).mpr hn]
  exact ⟨_, exec_of_raised hraise, entersVia_enter _ _ s, rfl⟩

/-! ### sc and rfi -/

/-- Settles O14: sc raises in every state, and the address it saves is the next instruction's (R306). -/
theorem scTakesSystemCall : Obligations.ScTakesSystemCall := fun s =>
  ⟨_, exec_of_raised (i := .sc) rfl, entersVia_enter .systemCall (s.pc + 4#32) s⟩

/-- The MSR that rfi leaves, bit by bit (R253). -/
theorem getBit_returnFromException_msr (s : State) (i : BitNo) :
    getBit (returnFromException s).msr i.val =
      if i.val < 16 then decide (i.val = 15) && getBit s.msr 15
      else if i.val = 24 ∨ (26 ≤ i.val ∧ i.val ≤ 29) then false else getBit s.srr1 i.val := by
  have hile : ∀ i : BitNo, getBit 0x00010000#32 i.val = decide (i.val = 15) := by decide
  have hsaved : ∀ i : BitNo, getBit 0x0000FF43#32 i.val = decide (16 ≤ i.val ∧ ¬ MsrReserved i.val) := by decide
  rw [returnFromException_msr, getBit_or, getBit_and, getBit_and, hile, hsaved]
  by_cases hlow : i.val < 16
  · by_cases h15 : i.val = 15 <;> simp [hlow, h15, Nat.not_le.mpr hlow]
  · have h15 : i.val ≠ 15 := by omega
    have h14 : ¬ i.val ≤ 14 := by omega
    by_cases hres : i.val = 24 ∨ (26 ≤ i.val ∧ i.val ≤ 29) <;> simp [hlow, h15, h14, hres, Nat.not_lt.mp hlow]

/-- Settles O15: at supervisor level rfi is `returnFromException`. -/
theorem rfiRestoresContext : Obligations.RfiRestoresContext := by
  intro s hpr
  refine ⟨returnFromException s, unlessRaised_of_none (privileged_of_supervisor hpr), getBit_returnFromException_msr s,
    fun i => ?_, onlyChanges_msr_pc s _ _⟩
  rw [returnFromException_pc, getBit_dropLowTwo _ _ i.isLt, Bool.and_comm]

/-! ### The SPR accesses that are refused -/

/-- An access by a level that may make it: supervisor level, or a number whose bit of weight 16 is 0 (R62, R162). -/
theorem privilegedAccess_of_allowed {n : Nat} {s : State} (h : getBit s.msr 17 = false ∨ n / 16 % 2 = 0) :
    privilegedAccess n s = none := by
  obtain hpr | hn := h
  · exact privilegedAccess_of_supervisor n hpr
  · refine privilegedAccess_of_user s ?_
    simp [privilegedSpr, Nat.testBit_eq_decide_div_mod_eq, hn]

theorem unspecifiedSpr_iff (n : Nat) :
    unspecifiedSpr n = true ↔ (144 ≤ n ∧ n ≤ 159) ∨ n = 560 ∨ n = 561 ∨ n = 562 ∨ n = 630 ∨ n = 1022 := by
  simp [unspecifiedSpr, or_assoc]

section
variable {n : Nat} {s : State} {refusal : Refusal}

/-- Where mfspr reads no register it names one of two refusals (R249, R250). -/
theorem readSpr_of_unreadable (h : n ∉ [1, 8, 9, 18, 19, 22, 26, 27, 272, 273, 274, 275, 287]) :
    readSpr n s = .refused (if unspecifiedSpr n then .registerNotSpecified else .sprNotDefined) := by
  unfold readSpr
  split
  case h_14 => exact (apply_ite _ _ _ _).symm
  all_goals exact absurd (by decide) h

/-- Where mtspr writes no register and the number is not the PVR's, it names one of two refusals (R249, R250). -/
theorem writeSpr_of_unwritable {v : Word}
    (h : n ∉ [1, 8, 9, 18, 19, 22, 26, 27, 80, 81, 82, 272, 273, 274, 275, 284, 285, 287]) :
    writeSpr n v s = .refused (if unspecifiedSpr n && n != 562 then .registerNotSpecified else .sprNotDefined) := by
  unfold writeSpr
  split
  case h_19 => exact (apply_ite _ _ _ _).symm
  all_goals exact absurd (by decide) h

theorem readTb_of_ne (hl : n ≠ 268) (hu : n ≠ 269) : readTb n s = .refused .sprNotDefined := by
  unfold readTb
  split
  case h_3 => rfl
  all_goals contradiction

theorem exec_mfspr_of_readSpr_refused (rD : Reg) (hn : syncException (.mfspr rD n) s = none)
    (h : readSpr n s = .refused refusal) : exec (.mfspr rD n) s = .refused refusal := by
  simp only [exec, execMfspr, unlessRaised_of_none hn, h, andThen]

theorem exec_mtspr_of_writeSpr_refused (rS : Reg) (hn : syncException (.mtspr n rS) s = none)
    (h : writeSpr n (s.gpr rS) s = .refused refusal) : exec (.mtspr n rS) s = .refused refusal := by
  simp only [exec, execMtspr, unlessRaised_of_none hn, h, andThen]

theorem exec_mftb_of_readTb_refused (rD : Reg) (hn : syncException (.mftb rD n) s = none)
    (h : readTb n s = .refused refusal) : exec (.mftb rD n) s = .refused refusal := by
  simp only [exec, execMftb, unlessRaised_of_none hn, h, andThen]

end

/-- Settles O24: the level may make the access, so each move is refused as its read or write of the register is. -/
theorem sprAccessesRefused : Obligations.SprAccessesRefused := by
  intro s r n hlevel
  have ha : privilegedAccess n s = none := privilegedAccess_of_allowed hlevel
  have hread : ∀ {refusal}, ¬ (n = 80 ∨ n = 81 ∨ n = 82) → readSpr n s = .refused refusal →
      exec (.mfspr r n) s = .refused refusal := fun he =>
    exec_mfspr_of_readSpr_refused r (by simp [syncException, ha, mt (emulatedRead_iff n).mp he])
  refine ⟨fun hn => ?unspecified, ?pvr, fun hn hdev => ?undefinedRead, fun hn hdev => ?undefinedWrite, fun hl hu => ?tb⟩
  case unspecified =>
    have hu : unspecifiedSpr n = true := (unspecifiedSpr_iff n).mpr hn
    refine ⟨hread (by omega) ?_, fun h562 => exec_mtspr_of_writeSpr_refused r ha ?_⟩
    · rw [readSpr_of_unreadable (by simp only [List.mem_cons, List.not_mem_nil, or_false]; omega), if_pos hu]
    · rw [writeSpr_of_unwritable (by simp only [List.mem_cons, List.not_mem_nil, or_false]; omega),
        if_pos (by simp [hu, h562])]
  case pvr =>
    rintro rfl
    exact exec_mtspr_of_writeSpr_refused r ha rfl
  case undefinedRead =>
    simp only [List.mem_cons, List.not_mem_nil, or_false] at hn
    refine hread (by omega) ?_
    rw [readSpr_of_unreadable (by simp only [List.mem_cons, List.not_mem_nil, or_false]; omega),
      if_neg (by rw [unspecifiedSpr_iff]; omega)]
  case undefinedWrite =>
    simp only [List.mem_cons, List.not_mem_nil, or_false] at hn
    refine exec_mtspr_of_writeSpr_refused r ha ?_
    rw [writeSpr_of_unwritable (by simp only [List.mem_cons, List.not_mem_nil, or_false]; omega),
      if_neg (by rw [Bool.and_eq_true, unspecifiedSpr_iff, bne_iff_ne]; omega)]
  case tb =>
    exact exec_mftb_of_readTb_refused r ha (readTb_of_ne hl hu)

end Sys2Proof.Machine
end

section
/-! The branches (44_supporting.md section 1). -/

namespace Sys2Proof.Machine

/-- The sum with a signed immediate, modulo 2^32. -/
theorem toNat_add_signedWord (a : Word) (x : Int) : ((a + signedWord x).toNat : Int) = (a.toNat + x) % 4294967296 := by
  rw [signedWord, BitVec.toNat_add, BitVec.toNat_ofInt]
  omega

/-- The target of b and bc is relative to the pc, or to 0 (R270, R271). -/
theorem isTarget_branchTarget (s : State) (disp : Int) (aa : Bool) :
    IsTarget (if aa = true then 0 else s.pc.toNat) disp (s.branchTarget disp aa) := by
  cases aa with
  | false => exact toNat_add_signedWord s.pc disp
  | true => simpa [IsTarget, State.branchTarget] using toNat_add_signedWord 0#32 disp

theorem onlyChanges_countedCtr (s : State) (bo : BitVec 5) :
    OnlyChanges (fun p => bo.getMsbD 2 = false ∧ p = .ctr) s { s with ctr := s.countedCtr bo } := by
  intro p hp
  cases p with
  | ctr => exact if_pos (by simpa using hp)
  | _ => rfl

section
variable {s : State} {lk : Bool} {target : Word}

/-- The end of a branch under a condition (R269). -/
theorem finishBranch_of_iff {taken : Bool} {cond : Prop} (hc : taken = true ↔ cond) (h : cond ∨ s.pc ≠ lastWord) :
    ∃ t, finishBranch lk taken target s = .next t ∧ (cond → t.pc = target) ∧ (¬ cond → t.pc = s.pc + 4#32) ∧
      (lk = true → t.lr = s.pc + 4#32) ∧ OnlyChanges (fun p => p = .pc ∨ (lk = true ∧ p = .lr)) s t := by
  obtain rfl : (taken = true) = cond := propext hc
  refine ⟨_, finishBranch_eq_next.mpr ⟨h, rfl⟩, fun ht => if_pos ht, fun ht => if_neg ht, fun hl => if_pos hl, ?_⟩
  intro p hp
  cases p with
  | pc => simp at hp
  | lr => exact if_neg fun hl => hp (.inr ⟨hl, rfl⟩)
  | _ => rfl

/-- A branch that counts (R269): the condition is tested, and CTR is left, as the decrement makes it. -/
theorem finishBranch_countedCtr {bo : BitVec 5} {bi : BitNo} (h : BranchCondition bo bi s ∨ s.pc ≠ lastWord) :
    ∃ t, finishBranch lk (s.branchTaken bo bi) target { s with ctr := s.countedCtr bo } = .next t ∧
      (BranchCondition bo bi s → t.pc = target) ∧ (¬ BranchCondition bo bi s → t.pc = s.pc + 4#32) ∧
      t.ctr = ctrAfter bo s ∧ (lk = true → t.lr = s.pc + 4#32) ∧
      OnlyChanges (fun p => p = .pc ∨ (bo.getMsbD 2 = false ∧ p = .ctr) ∨ (lk = true ∧ p = .lr)) s t := by
  obtain ⟨t, ht, htaken, hnot, hlr, hframe⟩ :=
    finishBranch_of_iff (s := { s with ctr := s.countedCtr bo }) (lk := lk) (target := target) branchTaken_iff h
  have hctr : t.ctr = ctrAfter bo s := hframe .ctr (by simp)
  exact ⟨t, ht, htaken, hnot, hctr, hlr,
    ((onlyChanges_countedCtr s bo).trans hframe).mono fun _ => or_left_comm.mp⟩

end

/-- A target without its two low bits, bit by bit (R272, R273). -/
theorem getBit_of_eq_dropLowTwo {v w : Word} (h : v = dropLowTwo w) (i : BitNo) :
    getBit v i.val = (decide (i.val < 30) && getBit w i.val) := by
  rw [h, getBit_dropLowTwo _ _ i.isLt, Bool.and_comm]

/-- Settles O38: b is a branch whose condition is always true. -/
theorem branchUnconditional : Obligations.BranchUnconditional := by
  intro s disp aa lk _
  obtain ⟨t, ht, hpc, -, hlr, hframe⟩ := finishBranch_of_iff (s := s) (lk := lk) (target := s.branchTarget disp aa)
    (iff_of_true rfl trivial) (.inl trivial)
  exact ⟨t, ht, hpc trivial ▸ isTarget_branchTarget s disp aa, hlr, hframe⟩

/-- Settles O39: bc is a branch that counts, to the target of b. -/
theorem branchConditional : Obligations.BranchConditional := by
  intro s bo bi disp aa lk _ h
  obtain ⟨t, ht, hpc, hrest⟩ := finishBranch_countedCtr (lk := lk) (target := s.branchTarget disp aa) h
  exact ⟨t, ht, fun hc => hpc hc ▸ isTarget_branchTarget s disp aa, hrest⟩

/-- With BO[2] = 1 the condition of R269 is its CR part. -/
theorem condOk_iff_branchCondition {s : State} {bo : BitVec 5} {bi : BitNo} (h : bo.getMsbD 2 = true) :
    s.condOk bo bi = true ↔ BranchCondition bo bi s := by
  rw [condOk_iff, BranchCondition, and_iff_right (.inl h)]

/-- Settles O40: bclr is a branch that counts; bcctr is one that does not, or is refused. -/
theorem branchToRegister : Obligations.BranchToRegister := by
  refine ⟨fun s bo bi lk h => ?bclr, fun s bo bi lk h2 h => ?bcctr, fun s bo bi lk h2 => ?refused⟩
  case bclr =>
    obtain ⟨t, ht, hpc, hrest⟩ := finishBranch_countedCtr (lk := lk) (target := dropLowTwo s.lr) h
    exact ⟨t, ht, fun hc => getBit_of_eq_dropLowTwo (hpc hc), hrest⟩
  case bcctr =>
    obtain ⟨t, ht, hpc, hrest⟩ :=
      finishBranch_of_iff (lk := lk) (target := dropLowTwo s.ctr) (condOk_iff_branchCondition h2) h
    exact ⟨t, (if_pos h2).trans ht, fun hc => getBit_of_eq_dropLowTwo (hpc hc), hrest⟩
  case refused => exact if_neg (Bool.eq_false_iff.mp h2)

end Sys2Proof.Machine
end

section
/-! The integer instructions and lwz (44_supporting.md sections 3 and 4). -/

namespace Sys2Proof.Machine

open Sys2Proof.Config

/-- `(rA|0)` as a number (R141). -/
theorem toNat_gprOrZero (s : State) (rA : Reg) :
    ((s.gprOrZero rA).toNat : Int) = if rA.val = 0 then 0 else ((s.gpr rA).toNat : Int) := by
  have hz : rA = 0 ↔ rA.val = 0 := Fin.ext_iff
  simp only [State.gprOrZero, hz]
  split <;> rfl

/-- Settles O43: addi writes rD and advances. -/
theorem addiAdds : Obligations.AddiAdds := by
  intro s rD rA simm _ hpc
  refine ⟨_, advance_of_ne hpc, ?_, rfl, (onlyChanges_setGpr s _ rD).trans (onlyChanges_pc _ _)⟩
  rw [← toNat_gprOrZero, ← toNat_add_signedWord]
  exact congrArg (fun v : Word => (v.toNat : Int)) (State.gpr_setGpr_same s rD _)

/-! ### Recording integer instructions -/

/-- The end of an instruction that has written `v` in GPR `r`, and may record it (R178): what it changed before, and what
recording adds. -/
theorem advance_maybeRecordCr0 {s u : State} {r : Reg} {v : Word} {rc : Bool} {c : Part → Prop} (hr : u.gpr r = v)
    (hpc : u.pc ≠ lastWord) (hframe : OnlyChanges c s u) :
    ∃ t, advance (if rc then u.recordCr0 v else u) = .next t ∧ t.gpr r = v ∧ t.xer = u.xer ∧
      (rc = true → RecordsCr0 (t.gpr r) t) ∧ t.pc = u.pc + 4#32 ∧
      OnlyChanges (fun p => c p ∨ (rc = true ∧ CrFieldPart 0 p) ∨ p = .pc) s t := by
  cases rc with
  | false =>
    exact ⟨_, advance_of_ne hpc, hr, rfl, fun h => (Bool.false_ne_true h).elim, rfl,
      hframe.trans ((onlyChanges_pc u _).mono fun _ => .inr)⟩
  | true =>
    subst hr
    have hrecord : OnlyChanges (fun p => true = true ∧ CrFieldPart 0 p) u (u.recordCr0 (u.gpr r)) :=
      (onlyChanges_setCrField u 0 _).mono fun _ h => ⟨rfl, h⟩
    exact ⟨_, advance_of_ne hpc, rfl, rfl, fun _ => recordsCr0_of_recordField rfl, rfl,
      hframe.trans (hrecord.trans (onlyChanges_pc _ _))⟩

/-- `s` with a result in rD, CA written, and with OE = 1 OV written and SO made sticky (R180, R181): what addic. and subfc
leave before they record. -/
def State.setResult (s : State) (rD : Reg) (v : Word) (oe ca ov : Bool) : State :=
  { s.setGpr rD v with xer := if oe then withOv (withCa s.xer ca) ov else withCa s.xer ca }

section
variable (s : State) (rD : Reg) (v : Word)

@[simp] theorem State.gpr_setResult_same (oe ca ov : Bool) : (s.setResult rD v oe ca ov).gpr rD = v :=
  State.gpr_setGpr_same s rD v

theorem getBit_setResult_xer_of_not_oe (ca ov : Bool) (i : BitNo) :
    getBit (s.setResult rD v false ca ov).xer i.val = if i.val = 2 then ca else getBit s.xer i.val :=
  getBit_withCa s.xer ca i.val i.isLt

theorem getBit_setResult_xer_of_oe (ca ov : Bool) (i : BitNo) :
    getBit (s.setResult rD v true ca ov).xer i.val =
      if i.val = 0 then getBit s.xer 0 || ov else if i.val = 1 then ov else if i.val = 2 then ca
      else getBit s.xer i.val := by
  change getBit (withOv (withCa s.xer ca) ov) i.val = _
  rw [getBit_withOv _ _ _ i.isLt, getBit_withCa _ _ _ i.isLt, getBit_withCa _ _ 0 (by decide),
    if_neg (show ¬ 0 = 2 by decide)]

theorem getBit_setResult_ca (oe ca ov : Bool) : getBit (s.setResult rD v oe ca ov).xer 2 = ca := by
  cases oe
  · exact getBit_setResult_xer_of_not_oe s rD v ca ov 2
  · exact getBit_setResult_xer_of_oe s rD v ca ov 2

theorem onlyChanges_setResult (oe ca ov : Bool) :
    OnlyChanges (fun p => p = .gpr rD ∨ p = .xerBit 2 ∨ (oe = true ∧ (p = .xerBit 0 ∨ p = .xerBit 1))) s
      (s.setResult rD v oe ca ov) := by
  intro p hp
  cases p with
  | gpr q => exact (State.gpr_setGpr s rD q v).trans (if_neg fun h => hp (.inl (congrArg Part.gpr h)))
  | xerBit i =>
    simp only [reduceCtorEq, Part.xerBit.injEq, false_or, not_or, not_and] at hp
    obtain ⟨hne2, hne01⟩ := hp
    have h2 : i.val ≠ 2 := fun h => hne2 (Fin.ext h)
    cases oe with
    | false => exact (getBit_setResult_xer_of_not_oe s rD v ca ov i).trans (if_neg h2)
    | true =>
      obtain ⟨hne0, hne1⟩ := hne01 rfl
      have h0 : i.val ≠ 0 := fun h => hne0 (Fin.ext h)
      have h1 : i.val ≠ 1 := fun h => hne1 (Fin.ext h)
      rw [Same, getBit_setResult_xer_of_oe, if_neg h0, if_neg h1, if_neg h2]
  | _ => rfl

/-- A result with its flags, recorded with Rc = 1 (R178), and an advance: the end of addic. and subfc. -/
theorem advance_setResult {s : State} (hpc : s.pc ≠ lastWord) (oe rc ca ov : Bool) :
    ∃ t, advance (if rc then (s.setResult rD v oe ca ov).recordCr0 v else s.setResult rD v oe ca ov) = .next t ∧
      t.gpr rD = v ∧ getBit t.xer 2 = ca ∧
      (oe = true → getBit t.xer 1 = ov ∧ getBit t.xer 0 = (getBit s.xer 0 || ov)) ∧
      (rc = true → RecordsCr0 (t.gpr rD) t) ∧ t.pc = s.pc + 4#32 ∧
      OnlyChanges (fun p => p = .gpr rD ∨ p = .xerBit 2 ∨ (oe = true ∧ (p = .xerBit 0 ∨ p = .xerBit 1)) ∨
        (rc = true ∧ CrFieldPart 0 p) ∨ p = .pc) s t := by
  obtain ⟨t, ht, hr, hxer, hcr, hpc', hframe⟩ :=
    advance_maybeRecordCr0 (rc := rc) (s.gpr_setResult_same rD v oe ca ov) hpc (onlyChanges_setResult s rD v oe ca ov)
  refine ⟨t, ht, hr, hxer ▸ getBit_setResult_ca s rD v oe ca ov, ?_, hcr, hpc', hframe.mono fun p hp => ?_⟩
  · rintro rfl
    rw [hxer]
    exact ⟨getBit_setResult_xer_of_oe s rD v ca ov 1, getBit_setResult_xer_of_oe s rD v ca ov 0⟩
  · simpa only [or_assoc] using hp

end

/-- Settles O44: addic. is `State.setResult` with OE = 0, recorded. -/
theorem addicDotAddsAndRecords : Obligations.AddicDotAddsAndRecords := by
  intro s rD rA simm _ hpc
  have hcarry : carryOut0 (s.gpr rA) (signedWord simm) 0 = true ↔
      (4294967296 : Int) ≤ ((s.gpr rA).toNat : Int) + simm % 4294967296 := by
    rw [carryOut0, exactSum, decide_eq_true_iff, signedWord, BitVec.toNat_ofInt]
    omega
  obtain ⟨t, ht, hr, hca, -, hcr, hpc', hframe⟩ := advance_setResult rD (s.gpr rA + signedWord simm) hpc false true
    (carryOut0 (s.gpr rA) (signedWord simm) 0) false
  exact ⟨t, ht, hr ▸ toNat_add_signedWord _ _, hca ▸ hcarry, hcr rfl, hpc', hframe.mono fun p hp => by simpa using hp⟩

/-- The bits of an unsigned immediate (R141). -/
theorem getBit_unsignedWord (x : Nat) (i : BitNo) : getBit (unsignedWord x) i.val = x.testBit (31 - i.val) := by
  rw [getBit_eq_getLsbD _ _ i.isLt, unsignedWord, BitVec.getLsbD_ofNat, decide_eq_true (by omega), Bool.true_and]

/-- The bits of a shifted immediate (R141). -/
theorem getBit_shiftedWord (x : Nat) (i : BitNo) :
    getBit (shiftedWord x) i.val = (decide (i.val < 16) && x.testBit (15 - i.val)) := by
  have hi := i.isLt
  rw [getBit_eq_getLsbD _ _ hi, shiftedWord, BitVec.getLsbD_shiftLeft, unsignedWord, BitVec.getLsbD_ofNat]
  by_cases h : i.val < 16
  · have hsub : 31 - i.val - 16 = 15 - i.val := by omega
    simp [h, hsub, show 31 - i.val < 32 by omega, show ¬ 31 - i.val < 16 by omega, show 15 - i.val < 32 by omega]
  · simp [h, show 31 - i.val < 16 by omega]

/-- The two forms that AND rS with an immediate word (R282, R283). -/
theorem advance_and_recordCr0 {s : State} (rA rS : Reg) (m : Word) (hpc : s.pc ≠ lastWord) :
    ∃ t, advance ((s.setGpr rA (s.gpr rS &&& m)).recordCr0 (s.gpr rS &&& m)) = .next t ∧
      t.gpr rA = s.gpr rS &&& m ∧ RecordsCr0 (t.gpr rA) t ∧ t.pc = s.pc + 4#32 ∧
      OnlyChanges (fun p => p = .gpr rA ∨ CrFieldPart 0 p ∨ p = .pc) s t := by
  obtain ⟨t, ht, hr, -, hcr, hpc', hframe⟩ :=
    advance_maybeRecordCr0 (rc := true) (State.gpr_setGpr_same s rA _) hpc (onlyChanges_setGpr s (s.gpr rS &&& m) rA)
  exact ⟨t, ht, hr, hcr rfl, hpc', hframe.mono fun p hp => by simpa using hp⟩

/-- Settles O45: the two forms differ in the word of the immediate. -/
theorem andImmediateRecords : Obligations.AndImmediateRecords := by
  intro s rA rS uimm _ hpc
  obtain ⟨t, ht, hr, hrest⟩ := advance_and_recordCr0 rA rS (unsignedWord uimm) hpc
  obtain ⟨u, hu, hr', hrest'⟩ := advance_and_recordCr0 rA rS (shiftedWord uimm) hpc
  refine ⟨⟨t, ht, fun i => ?_, hrest⟩, ⟨u, hu, fun i => ?_, hrest'⟩⟩
  · rw [hr, getBit_and, getBit_unsignedWord]
  · rw [hr', getBit_and, getBit_shiftedWord]

/-- The exact difference: the sum of rB, the complement of rA and 1 (R284). -/
theorem toNat_not_add_add_one (a b : Word) :
    ((~~~a + b + 1#32).toNat : Int) = ((b.toNat : Int) - a.toNat) % 4294967296 := by
  rw [BitVec.toNat_add, BitVec.toNat_add, BitVec.toNat_not, BitVec.toNat_ofNat]
  omega

/-- The carry out of bit 0 of a subtraction is the absence of a borrow (R181). -/
theorem carryOut0_not_iff (a b : Word) : carryOut0 (~~~a) b 1 = true ↔ a.toNat ≤ b.toNat := by
  rw [carryOut0, exactSum, decide_eq_true_iff, BitVec.toNat_not]
  omega

/-- The two carries of a subtraction differ exactly on signed overflow (R180). -/
theorem overflowOut_not_iff (a b : Word) :
    overflowOut (~~~a) b 1 = true ↔ b.toInt - a.toInt < -2147483648 ∨ 2147483647 < b.toInt - a.toInt := by
  rw [overflowOut_iff, BitVec.toNat_not, BitVec.toInt_eq_toNat_cond, BitVec.toInt_eq_toNat_cond]
  omega

/-- Settles O46: subfc is `State.setResult` of the difference, recorded with Rc = 1. -/
theorem subfcSubtracts : Obligations.SubfcSubtracts := by
  intro s rD rA rB oe rc hpc
  obtain ⟨t, ht, hr, hca, hoe, hrest⟩ := advance_setResult rD (~~~s.gpr rA + s.gpr rB + 1#32) hpc oe rc
    (carryOut0 (~~~s.gpr rA) (s.gpr rB) 1) (overflowOut (~~~s.gpr rA) (s.gpr rB) 1)
  refine ⟨t, ht, hr ▸ toNat_not_add_add_one _ _, hca ▸ carryOut0_not_iff _ _, fun ho => ?_, hrest⟩
  obtain ⟨hov, hso⟩ := hoe ho
  rw [hso, hov]
  exact ⟨overflowOut_not_iff _ _, rfl⟩

/-! ### lwz -/

theorem State.memRead_of_littleEndian {s : State} {k : Access} {a : Word} {n : Nat} (h : getBit s.msr 31 = true) :
    s.memRead k a n = .refused .littleEndianMode := if_pos h

/-- The effective address of lwz (R286). -/
theorem effectiveAddress_eq {s : State} {rA : Reg} {d : Int} {ea : Word}
    (h : (ea.toNat : Int) = ((if rA.val = 0 then 0 else ((s.gpr rA).toNat : Int)) + d) % 4294967296) :
    s.effectiveAddress rA d = ea := by
  rw [← toNat_gprOrZero, ← toNat_add_signedWord, Int.natCast_inj] at h
  exact (BitVec.eq_of_toNat_eq h).symm

/-- lwz off a multiple of 4 (R104, R286). -/
theorem execLwz_of_misaligned {s : State} {rD rA : Reg} {d : Int} (h : (s.effectiveAddress rA d).toNat % 4 ≠ 0) :
    execLwz rD rA d s = .refused .misalignedAccess := if_pos h

/-- lwz at a multiple of 4 is a read and a write of rD (R286). -/
theorem execLwz_of_aligned {s : State} {rD rA : Reg} {d : Int} (h : (s.effectiveAddress rA d).toNat % 4 = 0) :
    execLwz rD rA d s = andThen (s.memRead .read (s.effectiveAddress rA d) 4) fun bytes =>
      advance (s.setGpr rD (BitVec.ofNat 32 (bigEndian bytes))) := if_neg (not_not.mpr h)

/-- The word that a lwz at a multiple of 4 reads: its four addresses do not wrap (R102, R111). -/
theorem toNat_bigEndian_readBytes_four (m : Memory) {a : Word} (h : a.toNat % 4 = 0) :
    (BitVec.ofNat 32 (bigEndian (Memory.readBytes m a 4))).toNat =
      (Memory.read m a.toNat).toNat * 16777216 + (Memory.read m (a.toNat + 1)).toNat * 65536 +
        (Memory.read m (a.toNat + 2)).toNat * 256 + (Memory.read m (a.toNat + 3)).toNat := by
  have haddr : ∀ j, j < 4 → (a + BitVec.ofNat 32 j).toNat = a.toNat + j := fun j hj => by
    have ha := a.isLt
    rw [BitVec.toNat_add, BitVec.toNat_ofNat]
    omega
  rw [Memory.readBytes_four, haddr 1 (by decide), haddr 2 (by decide), haddr 3 (by decide), BitVec.toNat_ofNat]
  simp only [bigEndian, List.foldl_cons, List.foldl_nil]
  have h0 := (Memory.read m a.toNat).isLt
  have h1 := (Memory.read m (a.toNat + 1)).isLt
  have h2 := (Memory.read m (a.toNat + 2)).isLt
  have h3 := (Memory.read m (a.toNat + 3)).isLt
  omega

/-- Settles O48: alignment is tested first, and then the read tests the mode and the map. -/
theorem lwzLoadsWord : Obligations.LwzLoadsWord := by
  intro s rD rA d ea _ hea
  obtain rfl := effectiveAddress_eq hea
  have hread : ∀ {o}, (s.effectiveAddress rA d).toNat % 4 = 0 → s.memRead .read (s.effectiveAddress rA d) 4 = o →
      exec (.lwz rD rA d) s = andThen o fun bytes => advance (s.setGpr rD (BitVec.ofNat 32 (bigEndian bytes))) :=
    fun hal ho => ho ▸ execLwz_of_aligned hal
  refine ⟨fun hal hle hacc hpc => ?loads, execLwz_of_misaligned, fun hal hle => ?littleEndian,
    fun hal hle hacc => ?unmapped⟩
  case loads =>
    refine ⟨_, (hread hal (State.memRead_of_accessible hle hacc)).trans (advance_of_ne hpc), ?_, rfl,
      (onlyChanges_setGpr s _ rD).trans (onlyChanges_pc _ _)⟩
    rw [← toNat_bigEndian_readBytes_four s.mem hal]
    exact congrArg BitVec.toNat (State.gpr_setGpr_same s rD _)
  case littleEndian => exact hread hal (State.memRead_of_littleEndian hle)
  case unmapped => exact hread hal (State.memRead_of_not_accessible hle hacc)

end Sys2Proof.Machine
end

section
/-! The core's step up to its end: asynchronous exceptions, the instruction at the pc, and the trace exception
(60_exceptions.md sections 1, 5 and 7). -/

namespace Sys2Proof.Machine

open Sys2Proof.Config

/-! ### The instruction at the pc -/

theorem State.fetch_of_decoded {s : State} {i : Instr} (hle : s.le = false) (ha : Accessible Region.mayFetch s.pc 4 s)
    (hd : decode (wordAt s.pc s) = some i) : s.fetch = .next i := by
  rw [State.fetch, State.memRead_of_accessible (k := .fetch) hle ha, andThen_next, decodeBytes_readBytes_four, hd]
  rfl

/-- A core about to execute `i` executes it (R300 steps 6 to 8). -/
theorem step_of_aboutToExecute {s c : State} {i : Instr} (hmoves : CoreMoves s c) (h : AboutToExecute i c) :
    step s = execTraced i c := by
  obtain ⟨hquiet, hle, ha, hd⟩ := h
  rw [step_of_coreMoves hmoves, coreStep_of_noInterrupt hquiet, State.fetch_of_decoded hle ha hd]
  exact if_neg (Bool.eq_false_iff.mp hle)

theorem isBranch_iff {i : Instr} :
    isBranch i = true ↔
      (∃ disp aa lk, i = .b disp aa lk) ∨ (∃ bo bi disp aa lk, i = .bc bo bi disp aa lk) ∨
        (∃ bo bi lk, i = .bclr bo bi lk) ∨ (∃ bo bi lk, i = .bcctr bo bi lk) := by
  cases i <;> simp [isBranch]

/-- The model's test for the trace exception is the condition of R317. -/
theorem traceApplies_iff {i : Instr} {s : State} : traceApplies i s = true ↔ Traced i s := by
  simp only [traceApplies, Traced, Bool.and_eq_true, Bool.or_eq_true, Option.isNone_iff_eq_none, bne_iff_ne, isBranch_iff,
    and_assoc]
  rfl

/-- Settles O6: the decoder reads only well-formed instructions, and the step is `execTraced` of the one at the pc. -/
theorem stepRunsDecodedInstruction : Obligations.StepRunsDecodedInstruction := by
  intro s c i hmoves h
  have ⟨_, _, _, hd⟩ := h
  exact ⟨wellFormed_of_decode _ i hd, step_of_aboutToExecute hmoves h, traceApplies_iff⟩

/-- Settles O10: `execTraced` enters the trace exception exactly where `Traced` holds. -/
theorem traceFollowsCompletion : Obligations.TraceFollowsCompletion := by
  intro s c t i hmoves h ht
  have hstep : step s = .next (if traceApplies i c then enter .trace t.pc t else t) :=
    (step_of_aboutToExecute hmoves h).trans (execTraced_eq_next.mpr ⟨t, ht, rfl⟩)
  refine ⟨fun htr => ⟨_, ?_, entersVia_enter .trace t.pc t⟩, fun htr => ?_⟩
  · rw [hstep, if_pos (traceApplies_iff.mpr htr)]
  · rw [hstep, if_neg (mt traceApplies_iff.mp htr)]

/-! ### Exceptions -/

/-- Settles O8: with EE = 1 the core's step asks for the external request first and the decrementer's next. -/
theorem pendingRequestsAreTaken : Obligations.PendingRequestsAreTaken := by
  intro s c hmoves hee
  rw [step_of_coreMoves hmoves]
  refine ⟨fun hext => ?external, fun hext hdec => ?decrementer⟩
  case external =>
    exact ⟨_, coreStep_eq_next.mpr (.inl ⟨hee, hext, rfl⟩), entersVia_enter _ _ c, Bool.and_true _, hext⟩
  case decrementer =>
    exact ⟨_, coreStep_eq_next.mpr (.inr (.inl ⟨hee, hext, hdec, rfl⟩)), entersVia_enter _ _ c, Bool.and_false _⟩

/-- Settles O13: entry is `enter`, and the offsets are those of the default table. -/
theorem entryTakesException : Obligations.EntryTakesException :=
  ⟨entersVia_enter, rfl, rfl, rfl, rfl, rfl, rfl, rfl, rfl, rfl, rfl, rfl, rfl, rfl, rfl, rfl⟩

theorem privileged_of_userLevel {s : State} (h : getBit s.msr 17 = true) : privileged s = some .program := if_pos h

theorem privilegedAccess_of_userLevel {s : State} {n : Nat} (h : getBit s.msr 17 = true) (hn : n / 16 % 2 = 1) :
    privilegedAccess n s = some .program := by
  simp [privilegedAccess, State.pr, h, privilegedSpr, Nat.testBit_eq_decide_div_mod_eq, hn]

/-- Settles O16: each of the six raises the program exception, which saves the instruction's own address (R306). -/
theorem privilegedAtUserLevel : Obligations.PrivilegedAtUserLevel := by
  intro s r n hpr
  have enters : ∀ i, syncException i s = some .program → ∃ t, exec i s = .next t ∧ EntersVia .program s.pc s t :=
    fun i hi => ⟨_, exec_of_raised hi, entersVia_enter .program s.pc s⟩
  have hlevel := privileged_of_userLevel hpr
  refine ⟨enters _ hlevel, enters _ hlevel, enters _ hlevel, fun hn => ?_⟩
  have haccess := privilegedAccess_of_userLevel hpr hn
  have hread : syncException (.mfspr r n) s = some .program := by rw [syncException, haccess, Option.some_or]
  exact ⟨enters _ hread, enters _ haccess, enters _ haccess⟩

end Sys2Proof.Machine
end

section
/-! Placing one instruction to run next (log 45): what each adjustment of `State.placeInstruction` achieves and leaves
unchanged, and the move that follows. -/

namespace Sys2Proof.Machine

open Sys2Proof.Config

/-! ### The adjustments -/

theorem noInterrupt_quiet (s : State) : NoInterrupt s.quiet := by
  unfold State.quiet
  split
  · exact .inr ⟨rfl, rfl⟩
  · exact .inl (Bool.eq_false_iff.mpr ‹_›)

theorem onlyChanges_quiet (s : State) : OnlyChanges (fun p => p = .extReq ∨ p = .decReq) s s.quiet := by
  intro p hp
  unfold State.quiet
  split
  · cases p with
    | extReq | decReq => simp at hp
    | _ => rfl
  · cases p <;> rfl

/-- Big-endian mode leaves the interrupts as they were: bit 31 is not EE. -/
theorem noInterrupt_bigEndianMode {s : State} (h : NoInterrupt s) : NoInterrupt s.bigEndianMode := by
  unfold State.bigEndianMode
  split
  · have hee : getBit (putBit s.msr 31 false) 16 = getBit s.msr 16 := getBit_putBit _ _ _ _ (by decide) (by decide)
    exact h.imp_left hee.trans
  · exact h

theorem bigEndianMode_le (s : State) : s.bigEndianMode.le = false := by
  unfold State.bigEndianMode
  split
  · exact (getBit_putBit _ _ _ _ (by decide) (by decide)).trans (if_pos rfl)
  · exact Bool.eq_false_iff.mpr ‹_›

theorem onlyChanges_bigEndianMode (s : State) : OnlyChanges (fun p => p = .msrBit 31) s s.bigEndianMode := by
  intro p hp
  unfold State.bigEndianMode
  split
  · cases p with
    | msrBit i =>
      have hi : i.val ≠ 31 := fun h => hp (congrArg Part.msrBit (Fin.ext h))
      exact (getBit_putBit _ _ _ _ (by decide) i.isLt).trans (if_neg hi)
    | _ => rfl
  · cases p <;> rfl

theorem withFetchMapped_eq (s : State) : ∃ map, s.withFetchMapped = { s with par := { s.par with memMap := map } } := by
  unfold State.withFetchMapped
  split <;> exact ⟨_, rfl⟩

theorem accessible_withFetchMapped (s : State) :
    Accessible Region.mayFetch s.withFetchMapped.pc 4 s.withFetchMapped := by
  unfold State.withFetchMapped
  split
  · exact State.mappedAll_iff.mp ‹_›
  · exact fun j _ => ⟨_, List.mem_cons_self, Nat.zero_le _, Nat.mod_lt _ (by decide), rfl⟩

theorem onlyChanges_withFetchMapped (s : State) : OnlyChanges (fun p => p = .par) s s.withFetchMapped := by
  obtain ⟨map, h⟩ := withFetchMapped_eq s
  intro p hp
  rw [h]
  cases p with
  | par => exact absurd rfl hp
  | _ => rfl

/-! ### All adjustments of the state but the schedule -/

/-- `s` ready to execute what stands at its pc: what `State.placeInstruction` makes of it before it sets the schedule and
writes the bytes. -/
def State.readied (s : State) : State := s.quiet.bigEndianMode.withFetchMapped

theorem State.readied_pc_mem (s : State) : s.readied.pc = s.pc ∧ s.readied.mem = s.mem := by
  obtain ⟨map, h⟩ := withFetchMapped_eq s.quiet.bigEndianMode
  rw [State.readied, h]
  unfold State.bigEndianMode State.quiet
  constructor <;> split <;> split <;> rfl

theorem noInterrupt_readied (s : State) : NoInterrupt s.readied := by
  obtain ⟨map, h⟩ := withFetchMapped_eq s.quiet.bigEndianMode
  rw [State.readied, h]
  exact noInterrupt_bigEndianMode (noInterrupt_quiet s)

theorem readied_le (s : State) : s.readied.le = false := by
  obtain ⟨map, h⟩ := withFetchMapped_eq s.quiet.bigEndianMode
  rw [State.readied, h]
  exact bigEndianMode_le s.quiet

theorem accessible_readied (s : State) : Accessible Region.mayFetch s.readied.pc 4 s.readied :=
  accessible_withFetchMapped s.quiet.bigEndianMode

theorem onlyChanges_readied (s : State) :
    OnlyChanges (fun p => p = .extReq ∨ p = .decReq ∨ p = .msrBit 31 ∨ p = .par) s s.readied :=
  (((onlyChanges_quiet s).trans (onlyChanges_bigEndianMode _)).trans (onlyChanges_withFetchMapped _)).mono
    fun _ => by simp only [or_assoc, imp_self]

/-! ### The schedule and the bytes -/

/-- With the core to move next, its move leaves the rest of the state to the step. -/
theorem coreMoves_coreNext (s : State) (m : Memory) :
    ∃ rest, CoreMoves { s.coreNext with mem := m } { s with mem := m, env := rest } := by
  unfold State.coreNext
  split
  · exact ⟨[], .inl ⟨‹_›, by simp [*]⟩⟩
  · exact ⟨_, .inr ⟨_, ‹_›, rfl⟩⟩
  · exact ⟨s.env, .inr ⟨_, rfl, rfl⟩⟩

theorem withFetchWord_eq (s : State) (nbits w : Nat) :
    s.withFetchWord nbits w =
      { s.readied.coreNext with
        mem := Memory.writeBytes s.mem s.pc (bytesOfWord (BitVec.ofNat 32 (w % 2 ^ nbits))) } := by
  have hkept : s.readied.coreNext.pc = s.readied.pc ∧ s.readied.coreNext.mem = s.readied.mem := by
    unfold State.coreNext
    split <;> exact ⟨rfl, rfl⟩
  obtain ⟨hpc, hmem⟩ := hkept
  obtain ⟨hpc', hmem'⟩ := s.readied_pc_mem
  rw [← hpc', ← hmem', ← hpc, ← hmem]
  rfl

/-- The word at the address where a word's bytes were written (R102, R111). -/
theorem wordAt_writeBytes {s : State} {m : Memory} {a v : Word} (hm : Memory.wf m = true) :
    wordAt a { s with mem := Memory.writeBytes m a (bytesOfWord v) } = v := by
  have hbytes : Memory.readBytes (Memory.writeBytes m a (bytesOfWord v)) a 4 = bytesOfWord v :=
    Memory.readBytes_writeBytes hm (show 4 ≤ 4294967296 by decide)
  simp only [Memory.readBytes_four, bytesOfWord, List.cons.injEq, and_true] at hbytes
  obtain ⟨h0, h1, h2, h3⟩ := hbytes
  rw [wordAt]
  simp only [bytesOfWord, h0, h1, h2, h3, wordOfBytes_extractLsb']

/-- Bytes written from `a` on change no other part. -/
theorem onlyChanges_writeBytes {s : State} (a : Word) (vs : List Byte) (hm : Memory.wf s.mem = true) :
    OnlyChanges (fun p => ∃ j, j < vs.length ∧ p = .memByte ((a.toNat + j) % 4294967296)) s
      { s with mem := Memory.writeBytes s.mem a vs } := by
  intro p hp
  cases p with
  | memByte b => exact Memory.read_writeBytes_outside hm fun j hj hb => hp ⟨j, hj, congrArg Part.memByte hb⟩
  | _ => rfl

theorem onlyChanges_env (s : State) (rest : List EnvStep) :
    OnlyChanges (fun p => p = .env) s { s with env := rest } := by
  intro p hp
  cases p with
  | env => exact absurd rfl hp
  | _ => rfl

/-- Writing bytes and setting the schedule change the bytes and the schedule. -/
theorem onlyChanges_writeBytes_env (s : State) (a : Word) (vs : List Byte) (rest : List EnvStep)
    (hm : Memory.wf s.mem = true) :
    OnlyChanges (fun p => (∃ j, j < vs.length ∧ p = .memByte ((a.toNat + j) % 4294967296)) ∨ p = .env) s
      { s with mem := Memory.writeBytes s.mem a vs, env := rest } :=
  (onlyChanges_writeBytes a vs hm).trans (onlyChanges_env _ rest)

/-- Settles O7: the core's move from the placed state finds the state readied, with the word at the pc. -/
theorem placedWordRunsNext : Obligations.PlacedWordRunsNext := by
  intro s nbits w i hwf hd
  obtain ⟨hpc, hmem⟩ := s.readied_pc_mem
  obtain ⟨rest, hmoves⟩ := coreMoves_coreNext s.readied
    (Memory.writeBytes s.mem s.pc (bytesOfWord (BitVec.ofNat 32 (w % 2 ^ nbits))))
  rw [← withFetchWord_eq] at hmoves
  refine ⟨_, hmoves, ?_⟩
  have hexec : AboutToExecute i
      { s.readied with
        mem := Memory.writeBytes s.mem s.pc (bytesOfWord (BitVec.ofNat 32 (w % 2 ^ nbits))), env := rest } := by
    refine ⟨noInterrupt_readied s, readied_le s, accessible_readied s, ?_⟩
    rw [← hd, ← hpc]
    exact congrArg decode (wordAt_writeBytes (s := { s.readied with env := rest }) hwf)
  refine ⟨hexec, step_of_aboutToExecute hmoves hexec, ?_⟩
  rw [← hmem, ← hpc]
  have hwritten := onlyChanges_writeBytes_env s.readied s.readied.pc
    (bytesOfWord (BitVec.ofNat 32 (w % 2 ^ nbits))) rest (hmem.symm ▸ hwf)
  refine ((onlyChanges_readied s).trans hwritten).mono ?_
  rintro p ((hx | hd | hm | hp) | hb | he)
  · exact .inr (.inl hx)
  · exact .inr (.inr (.inl hd))
  · exact .inr (.inr (.inr (.inl hm)))
  · exact .inr (.inr (.inr (.inr (.inl hp))))
  · exact .inl hb
  · exact .inr (.inr (.inr (.inr (.inr he))))

end Sys2Proof.Machine
end

section
/-! The two levels (60_exceptions.md section 7, R320): how MSR[PR] is set, and what an instruction at user level can
change. -/

namespace Sys2Proof.Machine

open Sys2Proof.Config

/-! ### MSR[PR] -/

theorem entryMsr_userLevel (m : Word) : getBit (entryMsr m) 17 = false := by
  have h := getBit_entryMsr m 17
  rwa [if_neg (by decide), if_neg (by decide)] at h

theorem resetMsr_userLevel (p : Params) : getBit (resetMsr p) 17 = false := by
  rw [resetMsr, getBit_putBit _ _ _ _ (by decide) (by decide), if_neg (by decide),
    getBit_putBit _ _ _ _ (by decide) (by decide), if_neg (by decide), getBit_zero]

/-- An instruction whose effect sets MSR[PR] is one of the two of R320. -/
theorem userLevel_of_statusEffect {s : State} {i : Instr} {st : Status} (h : StatusEffect s i st)
    (hs : getBit s.msr 17 = false) (hst : getBit st.msr 17 = true) :
    (i = .rfi ∧ getBit s.srr1 17 = true) ∨ ∃ rS, i = .mtmsr rS ∧ getBit (s.gpr rS) 17 = true := by
  cases h with
  | rfi => exact .inl ⟨rfl, (getBit_returnFromException_msr s 17).symm.trans hst⟩
  | mtmsr rS =>
    simp only [getBit_and, Bool.and_eq_true] at hst
    obtain ⟨hbit, -⟩ := hst
    exact .inr ⟨rS, rfl, hbit⟩
  | mtsprEeRi rS ee ri hn =>
    have hkept : getBit (putBit (putBit s.msr 16 ee) 30 ri) 17 = getBit s.msr 17 :=
      (getBit_setEeRi_msr s ee ri 17).trans (by simp)
    cases (hkept.symm.trans hst).symm.trans hs
  | _ => cases hst.symm.trans hs

theorem coreStep_leaves_supervisor {s t : State} (h : coreStep s = .next t) (hs : getBit s.msr 17 = false)
    (ht : getBit t.msr 17 = true) :
    (s.fetch = .next .rfi ∧ getBit s.srr1 17 = true) ∨
      ∃ rS, s.fetch = .next (.mtmsr rS) ∧ getBit (s.gpr rS) 17 = true := by
  have entered : ∀ {e a u}, getBit (enter e a u).msr 17 ≠ true := fun he =>
    Bool.false_ne_true ((entryMsr_userLevel _).symm.trans he)
  obtain ⟨-, -, rfl⟩ | ⟨-, -, -, rfl⟩ | ⟨-, i, hf, hi⟩ := coreStep_eq_next.mp h
  · exact absurd ht entered
  · exact absurd ht entered
  · obtain ⟨u, hu, rfl⟩ := execTraced_eq_next.mp hi
    split at ht
    · exact absurd ht entered
    · cases hn : syncException i s with
      | some e =>
        cases (exec_of_raised hn).symm.trans hu
        exact absurd ht entered
      | none =>
        obtain ⟨rfl, hbit⟩ | ⟨rS, rfl, hbit⟩ := userLevel_of_statusEffect (exec_statusEffect hn hu) hs ht
        · exact .inl ⟨hf, hbit⟩
        · exact .inr ⟨rS, hf, hbit⟩

/-- Settles O57: beside the core only a reset writes the MSR, and it clears PR. -/
theorem supervisorLevelIsLeftOnlyByTwo : Obligations.SupervisorLevelIsLeftOnlyByTwo := by
  intro s t h hs ht
  obtain ⟨-, hcore⟩ | ⟨rest, -, hcore⟩ | ⟨rest, -, rfl⟩ | ⟨rest, -, rfl⟩ | ⟨level, rest, -, rfl⟩ | ⟨rest, -, rfl⟩ :=
    step_eq_next.mp h
  · exact coreStep_leaves_supervisor hcore hs ht
  · exact coreStep_leaves_supervisor (s := { s with env := rest }) hcore hs ht
  · cases ht.symm.trans hs
  · cases ht.symm.trans hs
  · cases ht.symm.trans hs
  · cases ht.symm.trans (resetMsr_userLevel s.par)

/-! ### The registers of the user level -/

/-- `s` with the registers of `x` that a user-level program may write (R320). -/
def State.withUserOf (s x : State) : State :=
  { s with
    gprs := x.gprs, fprs := x.fprs, fpscr := x.fpscr, cr := x.cr, xer := x.xer, lr := x.lr, ctr := x.ctr, pc := x.pc,
    draws := x.draws }

theorem onlyChanges_withUserOf (s x : State) : OnlyChanges UserPart s (s.withUserOf x) := by
  intro p hp
  cases p with
  | gpr | fpr | fpscrBit | crBit | xerBit | lr | ctr | pc | draws => simp [UserPart] at hp
  | _ => rfl

/-- At user level an SPR access that raises nothing is one to a user-level register (R162). -/
theorem privilegedSpr_of_userLevel {s : State} {n : Nat} (hpr : getBit s.msr 17 = true)
    (h : privilegedAccess n s = none) : privilegedSpr n = false := by
  simpa [privilegedAccess, State.pr, hpr] using h

/-- Of the registers that mtspr writes only XER, LR and CTR are the user level's (R62). -/
theorem eq_withUserOf_of_writeSpr {n : Nat} {v : Word} {s t : State} (hn : privilegedSpr n = false)
    (h : writeSpr n v s = .next t) : t = s.withUserOf t := by
  obtain ⟨-, rfl⟩ | ⟨-, rfl⟩ | ⟨-, rfl⟩ | ⟨rfl, -⟩ | ⟨rfl, -⟩ | ⟨rfl, -⟩ | ⟨rfl, -⟩ | ⟨rfl, -⟩ | ⟨rfl, -⟩ | ⟨rfl, -⟩ |
    ⟨rfl, -⟩ | ⟨k, rfl, -⟩ | ⟨rfl, -⟩ | ⟨rfl, -⟩ := writeSpr_eq_next h
  · rfl
  · rfl
  · rfl
  on_goal 9 =>
    have hsprg : ∀ k : Fin 4, privilegedSpr (272 + k.val) = true := by decide
    cases (hsprg k).symm.trans hn
  all_goals cases hn

theorem eq_withUserOf_settleFx (s : State) (explicit : Prop) [Decidable explicit] (f : Word) :
    s.settleFx explicit f = s.withUserOf (s.settleFx explicit f) := by
  unfold State.settleFx
  split
  · rfl
  · obtain h | ⟨-, -, ⟨-, h⟩ | ⟨-, h⟩⟩ := s.setFpscrImplicitFx_cases (fixSummary f) <;> rw [h] <;> rfl

theorem eq_withUserOf_endFp_settleFx (s : State) (explicit : Prop) [Decidable explicit] (f : Word) (rc : Bool) :
    (s.settleFx explicit f).endFp rc = s.withUserOf ((s.settleFx explicit f).endFp rc) := by
  rw [eq_withUserOf_settleFx s explicit f]
  rfl

/-- At user level an instruction that raises nothing writes registers of the user level alone. -/
theorem exec_eq_withUserOf {i : Instr} {s t : State} (hpr : getBit s.msr 17 = true) (hn : syncException i s = none)
    (h : exec i s = .next t) : t = s.withUserOf t := by
  cases i with
  | cmp | cmpi | cmpl | cmpli | addi | addicDot | andiDot | andisDot | mfcr | mtcrf | mcrf | mcrxr | crand | cror | crxor
  | crnand | crnor | creqv | crandc | crorc =>
    obtain ⟨-, rfl⟩ := advance_eq_next.mp h
    rfl
  | subfc rD rA rB oe rc =>
    obtain ⟨-, rfl⟩ := advance_eq_next.mp h
    cases rc <;> rfl
  | b | bc | bclr | bcctr =>
    obtain ⟨lr, ctr, pc, rfl, -⟩ := exec_isBranch rfl h
    rfl
  | lwz =>
    obtain ⟨v, rfl⟩ := eq_of_exec_lwz h
    rfl
  | sc => cases hn
  | rfi | mfmsr | mtmsr => cases (privileged_of_userLevel hpr).symm.trans hn
  | mfspr | mftb =>
    obtain ⟨v, -, h⟩ := andThen_eq_next.mp (effect_of_unraised hn h)
    obtain ⟨-, rfl⟩ := advance_eq_next.mp h
    rfl
  | mtspr n rS =>
    obtain ⟨u, hu, h⟩ := andThen_eq_next.mp (effect_of_unraised hn h)
    obtain ⟨-, rfl⟩ := advance_eq_next.mp h
    rw [eq_withUserOf_of_writeSpr (privilegedSpr_of_userLevel hpr hn) hu]
    rfl
  | mffs frD rc =>
    obtain ⟨-, rfl⟩ := advance_eq_next.mp (effect_of_unraised hn h)
    cases rc <;> rfl
  | mcrfs | mtfsb0 | mtfsb1 =>
    cases eq_of_finishFpscr_eq_next (effect_of_unraised hn h)
    rfl
  | mtfsf | mtfsfi =>
    cases eq_of_finishFpscr_eq_next (effect_of_unraised hn h)
    exact eq_withUserOf_endFp_settleFx s _ _ _

/-! ### The step at user level -/

theorem coreStep_executes {s t : State} (hquiet : NoInterrupt s) (h : coreStep s = .next t) :
    ∃ i, s.fetch = .next i ∧ execTraced i s = .next t := by
  rw [coreStep_of_noInterrupt hquiet] at h
  split at h
  · cases h
  · exact andThen_eq_next.mp h

/-- No trace exception follows an instruction that raised (R317). -/
theorem traceApplies_of_raised {i : Instr} {s : State} {e : Exc} (h : syncException i s = some e) :
    traceApplies i s = false := by
  simp [traceApplies, h]

/-- Settles O56: an instruction that raises changes nothing before entry; one that does not writes registers of the user
level, and the trace exception may follow it. -/
theorem userLevelIsConfined : Obligations.UserLevelIsConfined := by
  intro s c t hmoves hpr hquiet hstep
  rw [step_of_coreMoves hmoves] at hstep
  obtain ⟨i, -, hi⟩ := coreStep_executes hquiet hstep
  obtain ⟨u, hu, rfl⟩ := execTraced_eq_next.mp hi
  cases hn : syncException i c with
  | some e =>
    cases (exec_of_raised hn).symm.trans hu
    rw [traceApplies_of_raised hn, if_neg Bool.false_ne_true, raise]
    exact .inr ⟨entryMsr_userLevel c.msr, c, e, c.resume e, onlyChanges_withUserOf c c, entersVia_enter _ _ c⟩
  | none =>
    have hkept := exec_eq_withUserOf hpr hn hu
    have hmsr : u.msr = (c.withUserOf u).msr := congrArg State.msr hkept
    have hframe : OnlyChanges UserPart c u := by
      rw [hkept]
      exact onlyChanges_withUserOf c u
    split
    · exact .inr ⟨entryMsr_userLevel u.msr, u, .trace, u.pc, hframe, entersVia_enter _ _ u⟩
    · rw [hmsr]
      exact .inl ⟨hpr, hframe⟩

end Sys2Proof.Machine
end

section
/-! What a user-level program sees: replacing the registers of the supervisor level, and memory by one that reads the same,
commutes with every user-level move (60_exceptions.md section 7, R320). -/

namespace Sys2Proof.Machine

open Sys2Proof.Config

/-! ### The hidden registers -/

/-- `s` with the registers of `x` that only the supervisor level reads (R320), and the memory list of `x`, since the parts
of a state say of memory only how it reads. -/
def State.withHiddenOf (s x : State) : State :=
  { s with
    dsisr := x.dsisr, dar := x.dar, dec := x.dec, srr0 := x.srr0, srr1 := x.srr1, sprg := x.sprg, pvr := x.pvr,
    unspecified := x.unspecified, decReq := x.decReq, extReq := x.extReq, mem := x.mem }

/-- The memories of `s` and `x` read the same. -/
def SameReads (s x : State) : Prop := ∀ a, Memory.read x.mem a = Memory.read s.mem a

theorem onlyChanges_withHiddenOf {s x : State} (h : SameReads s x) :
    OnlyChanges SupervisorPart s (s.withHiddenOf x) := by
  intro p hp
  cases p with
  | memByte a => exact h a
  | dsisr | dar | dec | srr0 | srr1 | sprg | pvr | unspecified | decReq | extReq => simp [SupervisorPart] at hp
  | _ => rfl

theorem gprs_eq_of_same {s t : State} (h : ∀ r, Same (.gpr r) s t) : t.gprs = s.gprs :=
  Vector.ext fun r hr => h ⟨r, hr⟩

theorem fprs_eq_of_same {s t : State} (h : ∀ r, Same (.fpr r) s t) : t.fprs = s.fprs :=
  Vector.ext fun r hr => h ⟨r, hr⟩

theorem tb_eq_of_same {s t : State} (hu : Same .tbu s t) (hl : Same .tbl s t) : t.tb = s.tb := by
  refine BitVec.eq_of_toNat_eq ?_
  rw [State.tb_toNat_eq_halves, State.tb_toNat_eq_halves, show t.tbu = s.tbu from hu, show t.tbl = s.tbl from hl]

/-- Two states that differ only in supervisor parts are one state with two sets of hidden registers. -/
theorem eq_withHiddenOf {s x : State} (h : OnlyChanges SupervisorPart s x) :
    x = s.withHiddenOf x ∧ SameReads s x := by
  have hgprs : x.gprs = s.gprs := gprs_eq_of_same fun r => h (.gpr r) (by simp [SupervisorPart])
  have hfprs : x.fprs = s.fprs := fprs_eq_of_same fun r => h (.fpr r) (by simp [SupervisorPart])
  have hfpscr : x.fpscr = s.fpscr := eq_of_getBit _ _ fun i hi => h (.fpscrBit ⟨i, hi⟩) (by simp [SupervisorPart])
  have hcr : x.cr = s.cr := eq_of_getBit _ _ fun i hi => h (.crBit ⟨i, hi⟩) (by simp [SupervisorPart])
  have hxer : x.xer = s.xer := eq_of_getBit _ _ fun i hi => h (.xerBit ⟨i, hi⟩) (by simp [SupervisorPart])
  have hmsr : x.msr = s.msr := eq_of_getBit _ _ fun i hi => h (.msrBit ⟨i, hi⟩) (by simp [SupervisorPart])
  have htb : x.tb = s.tb :=
    tb_eq_of_same (h .tbu (by simp [SupervisorPart])) (h .tbl (by simp [SupervisorPart]))
  have hlr : x.lr = s.lr := h .lr (by simp [SupervisorPart])
  have hctr : x.ctr = s.ctr := h .ctr (by simp [SupervisorPart])
  have hpc : x.pc = s.pc := h .pc (by simp [SupervisorPart])
  have hpar : x.par = s.par := h .par (by simp [SupervisorPart])
  have henv : x.env = s.env := h .env (by simp [SupervisorPart])
  have hdraws : x.draws = s.draws := h .draws (by simp [SupervisorPart])
  refine ⟨?_, fun a => h (.memByte a) (by simp [SupervisorPart])⟩
  simp only [State.withHiddenOf, ← hgprs, ← hfprs, ← hfpscr, ← hcr, ← hxer, ← hmsr, ← htb, ← hlr, ← hctr, ← hpc, ← hpar,
    ← henv, ← hdraws]

/-! ### Outcomes -/

/-- The outcome `r` with the hidden registers of `x` in its next state. -/
def hideIn (x : State) (r : Result State) : Result State := andThen r fun t => .next (t.withHiddenOf x)

section
variable (x : State)

theorem hideIn_andThen {α : Type} (o : Result α) (k : α → Result State) :
    hideIn x (andThen o k) = andThen o fun a => hideIn x (k a) := by
  cases o <;> rfl

theorem andThen_hideIn (r : Result State) (k : State → Result State) :
    andThen (hideIn x r) k = andThen r fun t => k (t.withHiddenOf x) := by
  cases r <;> rfl

theorem hideIn_ite {p : Prop} [Decidable p] (a b : Result State) :
    hideIn x (if p then a else b) = if p then hideIn x a else hideIn x b := by
  split <;> rfl

theorem hideIn_advance (s : State) : hideIn x (advance s) = advance (s.withHiddenOf x) := hideIn_ite x _ _

theorem hideIn_finishBranch (lk taken : Bool) (target : Word) (s : State) :
    hideIn x (finishBranch lk taken target s) = finishBranch lk taken target (s.withHiddenOf x) := by
  cases taken
  · cases lk <;> exact hideIn_advance x _
  · cases lk <;> rfl

theorem hideIn_finishFpscr (rc : Bool) (s : State) :
    hideIn x (finishFpscr rc s) = finishFpscr rc (s.withHiddenOf x) := by
  refine (hideIn_ite x _ _).trans (if_congr Iff.rfl rfl ?_)
  cases rc <;> exact hideIn_advance x _

theorem setFpscrImplicitFx_withHiddenOf (s : State) (f : Word) :
    (s.setFpscrImplicitFx f).withHiddenOf x = (s.withHiddenOf x).setFpscrImplicitFx f := by
  refine (apply_ite (State.withHiddenOf · x) _ _ _).trans (if_congr Iff.rfl ?_ rfl)
  cases hfx : s.par.fxOnMtfsf <;> simp only [State.withHiddenOf, hfx]

theorem settleFx_withHiddenOf (s : State) (explicit : Prop) [Decidable explicit] (f : Word) :
    (s.settleFx explicit f).withHiddenOf x = (s.withHiddenOf x).settleFx explicit f :=
  (apply_ite (State.withHiddenOf · x) _ _ _).trans (if_congr Iff.rfl rfl (setFpscrImplicitFx_withHiddenOf x s _))

theorem syncException_withHiddenOf (i : Instr) (s : State) : syncException i (s.withHiddenOf x) = syncException i s := by
  cases i <;> rfl

theorem hideIn_unlessRaised {i : Instr} {s : State} {r r' : Result State} (hn : syncException i s = none)
    (h : hideIn x r = r') : hideIn x (unlessRaised i s r) = unlessRaised i (s.withHiddenOf x) r' := by
  rw [unlessRaised_of_none hn, unlessRaised_of_none ((syncException_withHiddenOf x i s).trans hn), h]

/-- mfspr reads the same at user level: no hidden register has a user-level number (R62). -/
theorem readSpr_withHiddenOf {n : Nat} (s : State) (hn : privilegedSpr n = false) :
    readSpr n (s.withHiddenOf x) = readSpr n s := by
  unfold readSpr
  split
  case h_1 | h_2 | h_3 | h_14 => rfl
  all_goals cases hn

/-- mtspr writes the same at user level. -/
theorem hideIn_writeSpr {n : Nat} (v : Word) (s : State) (hn : privilegedSpr n = false) :
    hideIn x (writeSpr n v s) = writeSpr n v (s.withHiddenOf x) := by
  unfold writeSpr
  split
  case h_1 | h_2 | h_3 => rfl
  case h_19 => exact hideIn_ite x _ _
  all_goals cases hn

end

section
variable {s x : State}

theorem readBytes_eq_of_sameReads (h : SameReads s x) (a : Word) (n : Nat) :
    Memory.readBytes x.mem a n = Memory.readBytes s.mem a n := by
  induction n generalizing a with
  | zero => rfl
  | succ n ih => rw [Memory.readBytes, Memory.readBytes, h, ih]

theorem mappedAll_withHiddenOf (k : Access) (a : Word) (n : Nat) :
    (s.withHiddenOf x).mappedAll k a n = s.mappedAll k a n := by
  induction n generalizing a with
  | zero => rfl
  | succ n ih =>
    rw [State.mappedAll, State.mappedAll, ih]
    rfl

theorem memRead_withHiddenOf (h : SameReads s x) (k : Access) (a : Word) (n : Nat) :
    (s.withHiddenOf x).memRead k a n = s.memRead k a n := by
  rw [State.memRead, State.memRead, mappedAll_withHiddenOf, show (s.withHiddenOf x).mem = x.mem from rfl,
    readBytes_eq_of_sameReads h]
  rfl

theorem fetch_withHiddenOf (h : SameReads s x) : (s.withHiddenOf x).fetch = s.fetch := by
  rw [State.fetch, memRead_withHiddenOf h]
  rfl

/-- At user level an instruction that raises nothing does the same whatever the hidden registers hold. -/
theorem hideIn_exec {i : Instr} (hpr : getBit s.msr 17 = true) (hmem : SameReads s x) (hn : syncException i s = none) :
    hideIn x (exec i s) = exec i (s.withHiddenOf x) := by
  cases i with
  | cmp | cmpi | cmpl | cmpli | addi | addicDot | andiDot | andisDot | mfcr | mtcrf | mcrf | mcrxr | crand | cror | crxor
  | crnand | crnor | creqv | crandc | crorc => exact hideIn_advance x _
  | subfc rD rA rB oe rc => cases rc <;> exact hideIn_advance x _
  | b disp aa lk => exact hideIn_finishBranch x lk true (s.branchTarget disp aa) s
  | bc | bclr => exact hideIn_finishBranch x _ _ _ _
  | bcctr bo bi lk => exact (hideIn_ite x _ _).trans (if_congr Iff.rfl (hideIn_finishBranch x _ _ _ _) rfl)
  | lwz rD rA d =>
    refine (hideIn_ite x _ _).trans (if_congr Iff.rfl rfl ?_)
    rw [hideIn_andThen]
    change _ = andThen ((s.withHiddenOf x).memRead .read (s.effectiveAddress rA d) 4) _
    rw [memRead_withHiddenOf hmem]
    exact congrArg _ (funext fun _ => hideIn_advance x _)
  | sc => cases hn
  | rfi | mfmsr | mtmsr => cases (privileged_of_userLevel hpr).symm.trans hn
  | mfspr rD n =>
    obtain ⟨ha, -⟩ := Option.or_eq_none_iff.mp hn
    refine hideIn_unlessRaised x hn ?_
    rw [hideIn_andThen, readSpr_withHiddenOf x s (privilegedSpr_of_userLevel hpr ha)]
    exact congrArg _ (funext fun _ => hideIn_advance x _)
  | mftb rD n =>
    refine hideIn_unlessRaised x hn ?_
    rw [hideIn_andThen]
    exact congrArg _ (funext fun _ => hideIn_advance x _)
  | mtspr n rS =>
    refine hideIn_unlessRaised x hn ?_
    change _ = andThen (writeSpr n (s.gpr rS) (s.withHiddenOf x)) advance
    rw [hideIn_andThen, ← hideIn_writeSpr x _ s (privilegedSpr_of_userLevel hpr hn), andThen_hideIn]
    exact congrArg _ (funext fun _ => hideIn_advance x _)
  | mffs frD rc =>
    refine hideIn_unlessRaised x hn ?_
    cases rc <;> exact hideIn_advance x _
  | mcrfs | mtfsb0 | mtfsb1 => exact hideIn_unlessRaised x hn (hideIn_finishFpscr x _ _)
  | mtfsf | mtfsfi =>
    exact hideIn_unlessRaised x hn ((hideIn_finishFpscr x _ _).trans
      (congrArg _ (settleFx_withHiddenOf x s _ _)))

end

/-! ### The step -/

/-- A user-level program cannot tell the outcomes `r` and `r'` apart: the same stop, or states that differ only in
registers of the supervisor level (R320). -/
def SeenAlike (r r' : Result State) : Prop :=
  (∀ t, r = .next t → ∃ t', r' = .next t' ∧ OnlyChanges SupervisorPart t t') ∧
  (∀ f, r = .fault f → r' = .fault f) ∧ (∀ f, r = .refused f → r' = .refused f)

section
variable {r r' : Result State} {s t t' x : State}

theorem seenAlike_next (h : OnlyChanges SupervisorPart t t') : SeenAlike (.next t) (.next t') := by
  refine ⟨fun u hu => ?_, nofun, nofun⟩
  cases hu
  exact ⟨t', rfl, h⟩

theorem seenAlike_refused (o : Refusal) : SeenAlike (.refused o) (.refused o) := by
  refine ⟨fun t h => ?_, fun f => id, fun f => id⟩
  cases h

theorem seenAlike_andThen {k k' : State → Result State} (h : SeenAlike r r')
    (hk : ∀ t t', OnlyChanges SupervisorPart t t' → SeenAlike (k t) (k' t')) :
    SeenAlike (andThen r k) (andThen r' k') := by
  obtain ⟨hnext, -, hrefused⟩ := h
  cases r with
  | next t =>
    obtain ⟨t', rfl, ht⟩ := hnext t rfl
    exact hk t t' ht
  | fault f => cases f
  | refused o =>
    cases hrefused o rfl
    exact seenAlike_refused o

theorem seenAlike_hideIn (h : ∀ t, r = .next t → SameReads t x) : SeenAlike r (hideIn x r) := by
  cases r with
  | next t => exact seenAlike_next (onlyChanges_withHiddenOf (h t rfl))
  | fault f => cases f
  | refused o => exact seenAlike_refused o

/-- Entry looks at no register of the supervisor level (R304). -/
theorem enter_seenAlike (e : Exc) (a : Word) (h : OnlyChanges SupervisorPart t t') :
    OnlyChanges SupervisorPart (enter e a t) (enter e a t') := by
  obtain ⟨ht, hmem⟩ := eq_withHiddenOf h
  rw [ht]
  exact onlyChanges_withHiddenOf (s := enter e a t) (x := enter e a (t.withHiddenOf t')) hmem

theorem exec_seenAlike (i : Instr) (hpr : getBit s.msr 17 = true) (hmem : SameReads s x) :
    SeenAlike (exec i s) (exec i (s.withHiddenOf x)) := by
  cases hn : syncException i s with
  | some e =>
    rw [exec_of_raised hn, exec_of_raised ((syncException_withHiddenOf x i s).trans hn)]
    exact seenAlike_next (enter_seenAlike e (s.resume e) (onlyChanges_withHiddenOf hmem))
  | none =>
    rw [← hideIn_exec hpr hmem hn]
    refine seenAlike_hideIn fun t ht a => ?_
    obtain ⟨hkept, -⟩ := State.constants_eq_iff.mp (exec_answersWith i s t ht)
    rw [hkept, hmem]

theorem traceApplies_withHiddenOf (i : Instr) (s x : State) :
    traceApplies i (s.withHiddenOf x) = traceApplies i s := by
  rw [traceApplies, syncException_withHiddenOf]
  rfl

theorem execTraced_seenAlike (i : Instr) (hpr : getBit s.msr 17 = true) (hmem : SameReads s x) :
    SeenAlike (execTraced i s) (execTraced i (s.withHiddenOf x)) := by
  refine seenAlike_andThen (exec_seenAlike i hpr hmem) fun t t' h => seenAlike_next ?_
  rw [traceApplies_withHiddenOf]
  split
  · have hpc : t'.pc = t.pc := h .pc (by simp [SupervisorPart])
    rw [hpc]
    exact enter_seenAlike .trace t.pc h
  · exact h

theorem coreStep_seenAlike (hpr : getBit s.msr 17 = true) (hmem : SameReads s x) (hs : NoInterrupt s)
    (hx : NoInterrupt (s.withHiddenOf x)) : SeenAlike (coreStep s) (coreStep (s.withHiddenOf x)) := by
  rw [coreStep_of_noInterrupt hs, coreStep_of_noInterrupt hx, fetch_withHiddenOf hmem,
    show (s.withHiddenOf x).le = s.le from rfl]
  split
  · exact seenAlike_refused _
  · cases s.fetch with
    | next i => exact execTraced_seenAlike i hpr hmem
    | fault f => cases f
    | refused o => exact seenAlike_refused o

theorem step_reset {rest : List EnvStep} (h : s.env = .reset :: rest) :
    step s = .next (assertReset { s with env := rest }) := by
  simp only [step, cycle, h]

theorem step_seenAlike (hpr : getBit s.msr 17 = true) (hmem : SameReads s x) (hs : NoInterrupt s)
    (hx : NoInterrupt (s.withHiddenOf x)) : SeenAlike (step s) (step (s.withHiddenOf x)) := by
  have moved : ∀ {t t' : State}, t' = t.withHiddenOf t' → SameReads t t' → SeenAlike (.next t) (.next t') :=
    fun ht h => ht ▸ seenAlike_next (onlyChanges_withHiddenOf h)
  have henv : (s.withHiddenOf x).env = s.env := rfl
  rcases hsenv : s.env with _ | ⟨agent, rest⟩ <;> rw [hsenv] at henv
  · rw [step_of_coreMoves (.inl ⟨hsenv, rfl⟩), step_of_coreMoves (.inl ⟨henv, rfl⟩)]
    exact coreStep_seenAlike hpr hmem hs hx
  · cases agent with
    | core =>
      rw [step_of_coreMoves (.inr ⟨rest, hsenv, rfl⟩), step_of_coreMoves (.inr ⟨rest, henv, rfl⟩)]
      exact coreStep_seenAlike (s := { s with env := rest }) hpr hmem hs hx
    | tbTick =>
      rw [step_tbTick hsenv, step_tbTick henv]
      exact moved rfl hmem
    | decTick =>
      rw [step_decTick hsenv, step_decTick henv]
      exact moved rfl hmem
    | extIrq level =>
      rw [step_extIrq hsenv, step_extIrq henv]
      exact moved rfl hmem
    | reset =>
      rw [step_reset hsenv, step_reset henv]
      exact moved rfl hmem

end

/-- Settles O58: the second state is the first with other hidden registers, and a user-level step sees none of them. -/
theorem supervisorStateIsHidden : Obligations.SupervisorStateIsHidden := by
  intro s x hpr h hs hx
  obtain ⟨e, hmem⟩ := eq_withHiddenOf h
  have alike := step_seenAlike hpr hmem hs (by rwa [← e])
  rwa [← e] at alike

end Sys2Proof.Machine
end

section
/-! Reset (70_reset_and_hazards.md section 1): the registers that a reset asserted during a run writes and those it leaves,
and the invariant at the state after reset. -/

namespace Sys2Proof.Machine

open Sys2Proof.Config

/-! ### A reset asserted during a run -/

/-- After reset ME and IP are the parameters, and every other bit of the MSR is 0 (R350). -/
theorem getBit_resetMsr (p : Params) (i : BitNo) :
    getBit (resetMsr p) i.val = if i.val = 19 then p.resetMe else if i.val = 25 then p.resetIp else false := by
  rw [resetMsr, getBit_putBit _ _ _ _ (by decide) i.isLt, getBit_putBit _ _ _ _ (by decide) i.isLt, getBit_zero]
  by_cases hme : i.val = 19 <;> simp [hme]

/-- A reset writes no register with RESET: UNCHANGED (R75, R350). -/
theorem onlyChanges_assertReset (s : State) :
    OnlyChanges (fun p => (∃ i, p = .msrBit i) ∨ p = .srr0 ∨ p = .srr1 ∨ p = .decReq ∨ p = .pc ∨ p = .draws) s
      (assertReset s) := by
  intro p hp
  cases p with
  | msrBit i => exact absurd (.inl ⟨i, rfl⟩) hp
  | srr0 | srr1 | decReq | pc | draws => simp at hp
  | _ => rfl

/-- Settles O12: a reset step takes its entry off the schedule and asserts reset, and the two frames compose. -/
theorem resetDuringRun : Obligations.ResetDuringRun := by
  intro s rest h
  refine ⟨_, step_reset h, getBit_resetMsr s.par, rfl, rfl, ?_⟩
  refine ((onlyChanges_env s rest).trans (onlyChanges_assertReset _)).mono ?_
  rintro p (rfl | ⟨i, rfl⟩ | rfl | rfl | rfl | rfl | rfl) <;> simp

/-! ### The state after reset -/

/-- RESET_PC and every offset of R302's table are word-aligned (R302, R353). -/
theorem paramsAligned_defaultParams : ParamsAligned defaultParams where
  resetPc := rfl
  vectors e := by cases e <;> rfl

theorem zeroOutside_zero (m : Word) : ZeroOutside m 0#32 := fun i _ => getBit_zero i.val

/-- The cleared FPSCR is settled, since with no exception bit both summary bits are 0 (R28, R29). -/
theorem statusOk_reset : StatusOk State.reset.status where
  msr := zeroOutside_zero msrMask
  xer := zeroOutside_zero xerMask
  fpscr := summaries_of_settledFrom (f := 0#32) (.inl (by decide))

theorem inv_reset : Inv State.reset := by
  obtain ⟨h20, hvx, hfex⟩ := statusOk_reset.fpscr
  exact {
    memory := reset_mem_wf
    pcAligned := paramsAligned_defaultParams.resetPc
    msrReserved := statusOk_reset.msr
    xerReserved := statusOk_reset.xer
    fpscrReserved := h20
    vx := hvx
    fex := hfex
    params := paramsAligned_defaultParams }

/-- Settles O55: the MSR is 0, and RESET_PC is the default of R353 for RESET_IP = 0. -/
theorem resetEstablishesInv : Obligations.ResetEstablishesInv :=
  ⟨inv_reset, fun i => getBit_zero i.val, rfl, rfl, rfl⟩

end Sys2Proof.Machine
end
